-- ==== Sys2Proof/Word.lean ====
section
/-! DEFINITION. The bit vectors of the register port (00_scope.md R6, R9, R10): registers, symbol
codes, word addresses and opcodes, all unsigned, bit 0 the least significant. -/

namespace Sys2Proof

/-- A value register or one word of the port, `K = 32` bits (R6, R30). -/
abbrev Word := BitVec 32

/-- A symbol code, `SYM = 8` bits (R6, R60, R61). -/
abbrev Byte := BitVec 8

/-- A word address of the port, `AW = 7` bits (R6, R80). -/
abbrev PortAddr := BitVec 7

/-- A register-sized word holding the natural number `n` modulo `2 ^ 32`. Every rule that writes a
register shows that its value fits (R160), so nothing is lost where the rules are followed. -/
abbrev Word.ofNat (n : Nat) : Word := BitVec.ofNat 32 n

end Sys2Proof
end

