-- ==== Sys2Proof/Config.lean ====
section
/-! DEFINITION. The implementation parameters of 00_scope.md R6. The document's own parameters
(modulus, generator, radix, width, alphabet) are registers, not parameters (R6, R45 to R49, R61).
The spec leaves no value of the machine open, so there is no free value here. -/

namespace Sys2Proof.Config

/-- `R_MAX`: largest radix, and the number of entries of the alphabet table. -/
def rMax : Nat := 64

/-- `W_MAX`: largest code width, and the number of entries of the code buffer. -/
def wMax : Nat := 32

/-- `VMAX`: the bound on `RADIX ^ WIDTH` that VALIDATE enforces. -/
def vMax : Nat := 2 ^ 32

/-- `OFFSET`: the constant added to the counter to form the exponent. -/
def offset : Nat := 1

/-- `ID_VALUE`: what a read of the `ID` register returns (R41). -/
def idValue : Word := 0x4D454501#32

end Sys2Proof.Config
end

