-- ==== Sys2Proof/Syntax.lean ====
section
/-! DEFINITION. What can be said to the block: the ten commands (30_encoding.md R113), the registers
of the port (10_state.md R40), the steps of the three agents (00_scope.md R8) and the host
statements (30_encoding.md R117, R118). -/

namespace Sys2Proof

/-- The ten commands, one per row of the opcode table. A command has no operand fields (R114). -/
inductive Instr where
  | nop
  | validate
  | modexp
  | modinv
  | scramble
  | unscramble
  | tostr
  | fromstr
  | encode
  | decode
  deriving DecidableEq, Repr

/-- The registers that have a word address (R40), by name. -/
inductive Reg where
  | id
  | ctrl
  | cmd
  | status
  | errinfo
  | p
  | g
  | n
  | radix
  | width
  | opa
  | opb
  | opm
  | res
  | codelen
  | code (j : Fin 32)
  | alpha (i : Fin 64)
  deriving DecidableEq, Repr

/-- One step of one agent (R8), as the agenda of a state lists them.
`read` and `write` are the two port transactions (R80). `wait` and `getCode` are the two host
statements whose transactions depend on what is read (R118). `engine` lets the engine take its
completion step there (R246, R296). `reset` is the reset input (R280). -/
inductive AgentStep where
  | read (a : PortAddr)
  | write (a : PortAddr) (v : Word)
  | wait
  | getCode
  | engine
  | reset
  deriving DecidableEq, Repr

/-- Host statements and pseudo-statements (R117, R118). -/
inductive HostStmt where
  | wr (r : Reg) (v : Word)
  | rd (r : Reg)
  | cmd (i : Instr)
  | wait
  | run (i : Instr)
  | ack
  | clrHaz
  | setAlpha (cs : List Word)
  | setCode (cs : List Word)
  | getCode
  deriving DecidableEq, Repr

end Sys2Proof
end

