-- ==== Sys2Proof/WellFormed.lean ====
section
/-! DEFINITION. What a well-formed command word, command and host statement is (30_encoding.md R110,
R113, R115, R117, R118). -/

namespace Sys2Proof

/-- A word that is one of the ten commands: bits 31:8 are 0 and bits 7:0 are at most 9 (R110, R112). -/
def wordLegal (w : Word) : Bool := decide (w.toNat / 2 ^ 8 = 0) && decide (w.toNat % 2 ^ 8 ≤ 9)

/-- A command has no operand field (R114), so every one of the ten is well formed (R113). The checks
that can fail are on words and on host statements. -/
def Instr.wf : Instr → Bool
  | .nop => true
  | .validate => true
  | .modexp => true
  | .modinv => true
  | .scramble => true
  | .unscramble => true
  | .tostr => true
  | .fromstr => true
  | .encode => true
  | .decode => true

/-- A well-formed host statement names only registers that exist: SETALPHA has at most `R_MAX`
symbols, SETCODE at most `W_MAX` (R117, R118). -/
def HostStmt.wf : HostStmt → Bool
  | .setAlpha cs => decide (cs.length ≤ Config.rMax)
  | .setCode cs => decide (cs.length ≤ Config.wMax)
  | .wr _ _ => true
  | .rd _ => true
  | .cmd i => i.wf
  | .wait => true
  | .run i => i.wf
  | .ack => true
  | .clrHaz => true
  | .getCode => true

end Sys2Proof
end

