-- ==== Sys2Proof/Decode.lean ====
section
/-! DEFINITION. Command decoding and encoding (30_encoding.md R110 to R115), and the address map of
the register port (10_state.md R40, R67). -/

namespace Sys2Proof

/-- The `opcode` field, bits 7:0 of a command word (R110). -/
def opcodeField (w : Word) : Byte := w.extractLsb' 0 8

/-- The `zero` field, bits 31:8 of a command word (R110). -/
def zeroField (w : Word) : BitVec 24 := w.extractLsb' 8 24

/-- The opcode of each command (R113). -/
def Instr.opcode : Instr → Byte
  | .nop => 0x00#8
  | .validate => 0x01#8
  | .modexp => 0x02#8
  | .modinv => 0x03#8
  | .scramble => 0x04#8
  | .unscramble => 0x05#8
  | .tostr => 0x06#8
  | .fromstr => 0x07#8
  | .encode => 0x08#8
  | .decode => 0x09#8

/-- Why a word is no command (R112, R115). Either reason completes with `IllegalCommand`. -/
inductive DecodeRefusal where
  /-- Bits 31:8 are not all 0. -/
  | zeroFieldSet (field : BitVec 24)
  /-- Bits 31:8 are 0 and the opcode is 0x0A to 0xFF. -/
  | opcodeReserved (opcode : Byte)
  deriving DecidableEq, Repr

/-- The opcode map (R113). -/
def instrOfOpcode (op : Byte) : Option Instr :=
  match op.toNat with
  | 0 => some .nop
  | 1 => some .validate
  | 2 => some .modexp
  | 3 => some .modinv
  | 4 => some .scramble
  | 5 => some .unscramble
  | 6 => some .tostr
  | 7 => some .fromstr
  | 8 => some .encode
  | 9 => some .decode
  | _ => none

/-- R112: the decoder, total on every 32-bit word. -/
def decode (w : Word) : Except DecodeRefusal Instr :=
  if zeroField w = 0 then
    match instrOfOpcode (opcodeField w) with
    | some i => .ok i
    | none => .error (.opcodeReserved (opcodeField w))
  else .error (.zeroFieldSet (zeroField w))

/-- The command word of a command (R110, R113): 24 zero bits above the opcode. -/
def encode (i : Instr) : Word := 0#24 ++ i.opcode

/-- The rows of the opcode map as R113 prints them: command, match, mask. -/
def opcodeRows : List (Instr × Word × Word) :=
  [(.nop, 0x00000000#32, 0xFFFFFFFF#32),
   (.validate, 0x00000001#32, 0xFFFFFFFF#32),
   (.modexp, 0x00000002#32, 0xFFFFFFFF#32),
   (.modinv, 0x00000003#32, 0xFFFFFFFF#32),
   (.scramble, 0x00000004#32, 0xFFFFFFFF#32),
   (.unscramble, 0x00000005#32, 0xFFFFFFFF#32),
   (.tostr, 0x00000006#32, 0xFFFFFFFF#32),
   (.fromstr, 0x00000007#32, 0xFFFFFFFF#32),
   (.encode, 0x00000008#32, 0xFFFFFFFF#32),
   (.decode, 0x00000009#32, 0xFFFFFFFF#32)]

/-- The command word that an instruction of `nbits` bits `w` is presented as: a command is always one
word (R110, R116), with every bit above `nbits` 0. -/
def tableWord (nbits w : Nat) : Word := Word.ofNat (w % 2 ^ nbits)

/-- The command that this decoder reads from an instruction whose `nbits` bits are `w`. -/
def decodeTableWord (nbits w : Nat) : Option Instr :=
  match decode (tableWord nbits w) with
  | .ok i => some i
  | .error _ => none

/-- The word address of each register (R40). -/
def regAddr : Reg → PortAddr
  | .id => 0x00#7
  | .ctrl => 0x01#7
  | .cmd => 0x02#7
  | .status => 0x03#7
  | .errinfo => 0x04#7
  | .p => 0x08#7
  | .g => 0x09#7
  | .n => 0x0A#7
  | .radix => 0x0B#7
  | .width => 0x0C#7
  | .opa => 0x10#7
  | .opb => 0x11#7
  | .opm => 0x12#7
  | .res => 0x13#7
  | .codelen => 0x14#7
  | .code j => BitVec.ofNat 7 (0x20 + j.val)
  | .alpha i => BitVec.ofNat 7 (0x40 + i.val)

/-- The single registers at word addresses 0x00 to 0x1F (R40). A reserved address has none (R67). -/
def lowRegAt (a : Nat) : Option Reg :=
  match a with
  | 0x00 => some .id
  | 0x01 => some .ctrl
  | 0x02 => some .cmd
  | 0x03 => some .status
  | 0x04 => some .errinfo
  | 0x08 => some .p
  | 0x09 => some .g
  | 0x0A => some .n
  | 0x0B => some .radix
  | 0x0C => some .width
  | 0x10 => some .opa
  | 0x11 => some .opb
  | 0x12 => some .opm
  | 0x13 => some .res
  | 0x14 => some .codelen
  | _ => none

/-- The register at a word address (R40, R88), or none at a reserved address (R67). -/
def regAt (a : PortAddr) : Option Reg :=
  if 0x40 ≤ a.toNat then
    some (.alpha ⟨a.toNat - 0x40, by have h := a.isLt; omega⟩)
  else if h : 0x20 ≤ a.toNat ∧ a.toNat < 0x40 then
    some (.code ⟨a.toNat - 0x20, by omega⟩)
  else lowRegAt a.toNat

end Sys2Proof
end

