-- ==== Sys2Proof/Machine/State.lean ====
section
/-! DEFINITION. The state of the block (10_state.md), its error kinds, why a step can stop, and the
reset state (10_state.md R70). -/

namespace Sys2Proof.Machine

/-- The ten error kinds (60_exceptions.md R240). Their codes are `kindCode` in Machine/Flags.lean. -/
inductive ErrorKind where
  | outOfRange
  | invalidLength
  | invalidCharacter
  | invalidCode
  | overflow
  | configInvalid
  | notConfigured
  | illegalCommand
  | badOperand
  | notInvertible
  deriving DecidableEq, Repr

/-- Faults: none. Every command word, operand value and port transaction has a defined effect
(70_reset_and_hazards.md R298), and a command that ends with an error is a next state with the error
in `ERR` and `ERRINFO` (60_exceptions.md R246, R247). Nobody raises a fault, which is safe: a claim
cannot hold because the machine stopped. -/
inductive Fault where
  deriving DecidableEq, Repr

/-- Refusals. -/
inductive Refusal where
  /-- A command that has no meaning yet, raised only by an arm of `exec`. Safe: the machine stops.
  Every command has its meaning, so no arm raises it. -/
  | notModelled (mnemonic : String)
  deriving DecidableEq, Repr

/-- The state of the block: the fields of the table at the head of 10_state.md, each in its one home,
then the model's own two fields `agenda` and `reads`, which stand for the outside of the port. -/
structure State where
  /-- Operand `OPA` (R30, R31). -/
  opa : Word
  /-- Operand `OPB` (R30, R31). -/
  opb : Word
  /-- Operand `OPM` (R30, R31). -/
  opm : Word
  /-- Result `RES` (R32). -/
  res : Word
  /-- The sequencer: true is BUSY, false is IDLE (R35, R36). -/
  busy : Bool
  /-- The latched command word `CMDW` (R66). -/
  cmdw : Word
  /-- `CTRL.IE` (R42). -/
  ie : Bool
  /-- `STATUS.DONE` (R37, R44). -/
  done : Bool
  /-- `STATUS.CFGV` (R37, R44, R52). -/
  cfgv : Bool
  /-- `STATUS.HAZ` (R37, R44). -/
  haz : Bool
  /-- `STATUS.ERR` (R44, R240). -/
  err : Byte
  /-- `STATUS.OP` (R44). -/
  op : Byte
  /-- `ERRINFO` (R50, R241). -/
  errinfo : Word
  /-- The modulus `P` (R45). -/
  p : Word
  /-- The generator `G` (R46). -/
  g : Word
  /-- `RADIX` (R48). -/
  radix : Word
  /-- `WIDTH` (R49). -/
  width : Word
  /-- `CODELEN` (R51). -/
  codelen : Word
  /-- The code buffer `CODE[0..31]` (R60). -/
  code : Vector Byte 32
  /-- The alphabet table `ALPHA[0..63]` (R61). -/
  alpha : Vector Byte 64
  /-- The model's own: the agent steps still to come, oldest first (R8, R90). Log entry 1. -/
  agenda : List AgentStep
  /-- The model's own: the words that host reads have returned, newest first (R82). Log entry 2. -/
  reads : List Word
  deriving DecidableEq, Repr

/-- The state after reset: every register, flag and array entry is 0 (R70, R280). The model's own
two fields are empty: nothing is scheduled and nothing has been read. -/
def State.reset : State where
  opa := 0
  opb := 0
  opm := 0
  res := 0
  busy := false
  cmdw := 0
  ie := false
  done := false
  cfgv := false
  haz := false
  err := 0
  op := 0
  errinfo := 0
  p := 0
  g := 0
  radix := 0
  width := 0
  codelen := 0
  code := Vector.replicate 32 0
  alpha := Vector.replicate 64 0
  agenda := []
  reads := []

end Sys2Proof.Machine
end

