-- ==== Sys2Proof/Machine/Flags.lean ====
section
/-! DEFINITION. The flags and fields of `STATUS`, the error codes and the interrupt output
(10_state.md R37, R42, R44; 60_exceptions.md R240, R256). -/

namespace Sys2Proof.Machine

/-- The code each error kind puts in `STATUS.ERR` (R240). -/
def kindCode : ErrorKind → Byte
  | .outOfRange => 1#8
  | .invalidLength => 2#8
  | .invalidCharacter => 3#8
  | .invalidCode => 4#8
  | .overflow => 5#8
  | .configInvalid => 6#8
  | .notConfigured => 7#8
  | .illegalCommand => 8#8
  | .badOperand => 9#8
  | .notInvertible => 10#8

/-- One bit, zero extended to a word (R82). -/
def bitWord (b : Bool) : Word := if b then 1#32 else 0#32

/-- What a read of `STATUS` returns (R44, R82): reserved bits read 0. -/
def statusWord (s : State) : Word :=
  bitWord s.busy ||| bitWord s.done <<< 1 ||| bitWord s.cfgv <<< 2 ||| bitWord s.haz <<< 3
    ||| s.err.zeroExtend 32 <<< 8 ||| s.op.zeroExtend 32 <<< 16

/-- What a read of `CTRL` returns (R42, R82). -/
def ctrlWord (s : State) : Word := bitWord s.ie

/-- The interrupt output, a level (R256). -/
def irq (s : State) : Bool := s.ie && s.done

/-- A host write to `CTRL`: only bit 0 is stored (R42). -/
def writeCtrl (s : State) (v : Word) : State := { s with ie := v.getLsbD 0 }

/-- A host write to `STATUS`: writing 1 to bit 1 clears `DONE`, writing 1 to bit 3 clears `HAZ`, and
every other written bit is ignored (R44). -/
def writeStatus (s : State) (v : Word) : State :=
  { s with done := s.done && !v.getLsbD 1, haz := s.haz && !v.getLsbD 3 }

end Sys2Proof.Machine
end

