-- ==== Sys2Proof/Machine/Operands.lean ====
section
/-! DEFINITION. The operands of the commands (30_encoding.md R114): whole registers read as unsigned
numbers, the alphabet and string entries that take part, and the two destinations of a result. -/

namespace Sys2Proof.Machine

/-- `N`, the truncated `P - 1` (R47). In every rule `N` means this. -/
def counterBound (s : State) : Nat := s.p.toNat - 1

/-- `ALPHA[0..RADIX-1]`, the only table entries that take part in a command (R61). -/
def symbols (s : State) : List Byte := s.alpha.toList.take s.radix.toNat

/-- `CODE[0..WIDTH-1]`, the only buffer entries a command reads (R60). -/
def codeString (s : State) : List Byte := s.code.toList.take s.width.toNat

/-- `RES <- n` (R32). -/
def putRes (n : Nat) (s : State) : State := { s with res := Word.ofNat n }

/-- Stores a list of symbol codes in consecutive entries of the code buffer from entry `j` on. -/
def storeSymbols : List Byte → Nat → Vector Byte 32 → Vector Byte 32
  | [], _, c => c
  | b :: bs, j, c => storeSymbols bs (j + 1) (c.setIfInBounds j b)

/-- `CODE[j] <- out[j]` for every `j` and `CODELEN <- WIDTH` (R51, R60, R203). -/
def putString (out : List Byte) (s : State) : State :=
  { s with code := storeSymbols out 0 s.code, codelen := s.width }

/-- `CFGV <- b` (R37, R143). -/
def putCfgv (b : Bool) (s : State) : State := { s with cfgv := b }

end Sys2Proof.Machine
end

