-- ==== Sys2Proof/Machine/Ops.lean ====
section
/-! DEFINITION. The shared operations: port reads and writes (20_memory.md R82, R83), accepting a
command (30_encoding.md R111), ending a command with success or with an error (60_exceptions.md
R246, R247), and reset (70_reset_and_hazards.md R280). -/

namespace Sys2Proof.Machine

/-- The two outcomes of a pure function of the units (00_scope.md R11, R12). -/
inductive Answer (α : Type) where
  | ok (a : α)
  | err (k : ErrorKind) (info : Nat)
  deriving DecidableEq, Repr

/-- The result of a step of this machine. -/
abbrev StepResult := Host.Outcome State Fault Refusal

/-! ### Ending a command -/

/-- A successful completion, once its updates are applied: `BUSY <- 0`, `DONE <- 1`. `ERR` and
`ERRINFO` stay as the accepted `CMD` write left them (R246). -/
def succeed (s : State) : State := { s with busy := false, done := true }

/-- `raise k(info)`, this block's taking of an exception: the error record is written, the block
returns to IDLE, and nothing else changes (R246, R247, R248). There is no return from it (R249). -/
def raise (s : State) (k : ErrorKind) (info : Nat) : State :=
  { s with err := kindCode k, errinfo := Word.ofNat info, busy := false, done := true }

/-- Applies the outcome of a command: the updates of `ok`, or the record of `err` (R246). -/
def conclude {α : Type} (s : State) (a : Answer α) (put : α → State → State) : StepResult :=
  match a with
  | .ok x => .next (succeed (put x s))
  | .err k info => .next (raise s k info)

/-- The `CFGV` test with which commands 4 to 9 begin (R251). -/
def whenConfigured (s : State) (body : StepResult) : StepResult :=
  if s.cfgv then body else .next (raise s .notConfigured 0)

/-! ### The register port -/

/-- Accepting a command word (R111). The word is not looked at. -/
def acceptCommand (s : State) (v : Word) : State :=
  { s with cmdw := v, op := opcodeField v, busy := true, done := false, err := 0, errinfo := 0 }

/-- What a read of a register returns (R82). -/
def readReg (s : State) : Reg → Word
  | .id => Config.idValue
  | .ctrl => ctrlWord s
  | .cmd => 0
  | .status => statusWord s
  | .errinfo => s.errinfo
  | .p => s.p
  | .g => s.g
  | .n => Word.ofNat (counterBound s)
  | .radix => s.radix
  | .width => s.width
  | .opa => s.opa
  | .opb => s.opb
  | .opm => s.opm
  | .res => s.res
  | .codelen => s.codelen
  | .code j => (s.code.get j).zeroExtend 32
  | .alpha i => (s.alpha.get i).zeroExtend 32

/-- `MemRead(a, 4)`: the word a host read of word address `a` returns (R82). It is a function of the
state alone, and a reserved address reads 0 (R67). -/
def portRead (s : State) (a : PortAddr) : Word :=
  match regAt a with
  | some r => readReg s r
  | none => 0

/-- The three classes of host writes (R83). -/
inductive WriteClass where
  /-- Class 1: always performed, never sets `HAZ`. -/
  | always
  /-- Class 2: always ignored, never sets `HAZ`. -/
  | ignored
  /-- Class 3: performed when `BUSY = 0`, dropped with `HAZ <- 1` when `BUSY = 1`. -/
  | gated
  deriving DecidableEq, Repr

/-- The class of a write to each register (R83, R86). -/
def writeClass : Reg → WriteClass
  | .ctrl => .always
  | .status => .always
  | .id => .ignored
  | .errinfo => .ignored
  | .n => .ignored
  | .res => .ignored
  | .cmd => .gated
  | .p => .gated
  | .g => .gated
  | .radix => .gated
  | .width => .gated
  | .opa => .gated
  | .opb => .gated
  | .opm => .gated
  | .codelen => .gated
  | .code _ => .gated
  | .alpha _ => .gated

/-- A write that is performed (R83). A write to a configuration register also clears `CFGV`, whatever
the value (R52). The registers of class 2 keep what they hold (R86). -/
def performWrite (s : State) (r : Reg) (v : Word) : State :=
  match r with
  | .ctrl => writeCtrl s v
  | .status => writeStatus s v
  | .cmd => acceptCommand s v
  | .p => { s with p := v, cfgv := false }
  | .g => { s with g := v, cfgv := false }
  | .radix => { s with radix := v, cfgv := false }
  | .width => { s with width := v, cfgv := false }
  | .opa => { s with opa := v }
  | .opb => { s with opb := v }
  | .opm => { s with opm := v }
  | .codelen => { s with codelen := v }
  | .code j => { s with code := s.code.set j (v.extractLsb' 0 8) }
  | .alpha i => { s with alpha := s.alpha.set i (v.extractLsb' 0 8), cfgv := false }
  | .id => s
  | .errinfo => s
  | .n => s
  | .res => s

/-- A write dropped because `BUSY = 1` (R288). -/
def dropWrite (s : State) : State := { s with haz := true }

/-- A host write to a register: its class first, then `BUSY` (R83). -/
def writeReg (s : State) (r : Reg) (v : Word) : State :=
  match writeClass r with
  | .always => performWrite s r v
  | .ignored => s
  | .gated => if s.busy then dropWrite s else performWrite s r v

/-- `MemWrite(a, 4, v)` (R83). A write to a reserved address is ignored (R67). -/
def portWrite (s : State) (a : PortAddr) (v : Word) : State :=
  match regAt a with
  | some r => writeReg s r v
  | none => s

/-! ### Agents -/

/-- The agent step at the head of the agenda is used up. -/
def setAgenda (s : State) (rest : List AgentStep) : State := { s with agenda := rest }

/-- One host read as a step: the word is returned to the host and nothing of the block changes (R82). -/
def hostRead (s : State) (a : PortAddr) : State := { s with reads := portRead s a :: s.reads }

/-- Reset as a step: every piece of the block's state takes its reset value, whatever it was doing
(R280, R281). What the host has read and what is still to come are outside the block. -/
def takeReset (s : State) : State := { State.reset with agenda := s.agenda, reads := s.reads }

end Sys2Proof.Machine
end

