-- ==== Sys2Proof/Machine/Codec.lean ====
section
/-! DEFINITION. The radix codec, TOSTR and FROMSTR (43_radix_codec.md). -/

namespace Sys2Proof.Machine

/-- The digit of `x` at string position `j`, position 0 the most significant (R200). -/
def digit (radix width x j : Nat) : Nat := x / radix ^ (width - 1 - j) % radix

/-- `to_string(x)` (R201): exactly `width` symbols, or `Overflow` when `x ≥ radix ^ width`. -/
def toStr (radix width : Nat) (syms : List Byte) (x : Nat) : Answer (List Byte) :=
  if radix ^ width ≤ x then .err .overflow x
  else .ok ((List.range width).map (fun j => syms.getD (digit radix width x j) 0))

/-- `index_of(c)` (R204): the least index at which the symbol stands, if there is one. -/
def indexOf (syms : List Byte) (c : Byte) : Option Nat := syms.findIdx? (· == c)

/-- The scan of R205 from position `j` on, with `v` accumulated so far. -/
def parseFrom (radix : Nat) (syms : List Byte) : List Byte → Nat → Nat → Answer Nat
  | [], _, v => .ok v
  | c :: cs, j, v =>
    match indexOf syms c with
    | none => .err .invalidCharacter (j <<< 8 ||| c.toNat)
    | some i => parseFrom radix syms cs (j + 1) (v * radix + i)

/-- `from_string(len, code)` (R205): the length is tested before any symbol is looked at. -/
def fromStr (radix width : Nat) (syms : List Byte) (len : Nat) (code : List Byte) : Answer Nat :=
  if len ≠ width then .err .invalidLength len else parseFrom radix syms code 0 0

/-- TOSTR: render `OPA` as `WIDTH` symbols in `CODE[]` (R203). -/
def execTostr (s : State) : StepResult :=
  whenConfigured s
    (conclude s (toStr s.radix.toNat s.width.toNat (symbols s) s.opa.toNat) putString)

/-- FROMSTR: parse the `WIDTH` symbols in `CODE[]` into `RES` (R206). -/
def execFromstr (s : State) : StepResult :=
  whenConfigured s
    (conclude s (fromStr s.radix.toNat s.width.toNat (symbols s) s.codelen.toNat (codeString s))
      putRes)

end Sys2Proof.Machine
end

