-- ==== Sys2Proof/Machine/Arith.lean ====
section
/-! DEFINITION. Modular arithmetic, MODEXP and MODINV (41_modular_arithmetic.md). All arithmetic is
over the naturals (R160). -/

namespace Sys2Proof.Machine

/-- Multiply, then reduce, with the full product (R161). -/
def modmul (a b m : Nat) : Nat := a * b % m

/-- The loop of R164, at most `fuel` times: `r` the product so far, `a` the running square, `x` what is
left of the exponent. -/
def modexpLoop (m : Nat) : Nat → Nat → Nat → Nat → Nat
  | 0, r, _, _ => r
  | fuel + 1, r, a, x =>
    if x = 0 then r
    else modexpLoop m fuel (if x % 2 = 1 then modmul r a m else r) (modmul a a m) (x / 2)

/-- `modexp(b, e, m)`, which is `b ^ e mod m` for `e < 2 ^ 32` (R162), by repeated squaring (R164). -/
def modexp (b e m : Nat) : Nat := modexpLoop m 32 (1 % m) (b % m) e

/-- The loop of R165: extended Euclid on `(r0, r1)` with the signed cofactors `(t0, t1)`. The remainder
`r1` falls at every turn, so `r1 + 1` turns are enough. -/
def euclidLoop : Nat → Nat → Nat → Int → Int → Nat × Int
  | 0, r0, _, t0, _ => (r0, t0)
  | fuel + 1, r0, r1, t0, t1 =>
    if r1 = 0 then (r0, t0)
    else euclidLoop fuel r1 (r0 - r0 / r1 * r1) t1 (t0 - ((r0 / r1 : Nat) : Int) * t1)

/-- `modinv(a, m)` (R165): the inverse in `[0, m)`, or `NotInvertible` with the gcd. -/
def modinv (a m : Nat) : Answer Nat :=
  match euclidLoop (a % m + 1) m (a % m) 0 1 with
  | (r, t) => if r = 1 then .ok (t % (m : Int)).toNat else .err .notInvertible r

/-- The outcome of MODEXP (R163). -/
def modexpAnswer (b e m : Nat) : Answer Nat :=
  if m = 0 then .err .badOperand 0 else .ok (modexp b e m)

/-- The outcome of MODINV (R166). -/
def modinvAnswer (a m : Nat) : Answer Nat :=
  if m = 0 then .err .badOperand 0 else modinv a m

/-- MODEXP: `RES <- OPA ^ OPB mod OPM` (R163). -/
def execModexp (s : State) : StepResult :=
  conclude s (modexpAnswer s.opa.toNat s.opb.toNat s.opm.toNat) putRes

/-- MODINV: `RES <- OPA ^ -1 mod OPM` (R166). `OPB` is not read. -/
def execModinv (s : State) : StepResult :=
  conclude s (modinvAnswer s.opa.toNat s.opm.toNat) putRes

end Sys2Proof.Machine
end

