-- ==== Sys2Proof/Machine/Permutation.lean ====
section
/-! DEFINITION. The permutation, SCRAMBLE and UNSCRAMBLE (42_permutation.md). -/

namespace Sys2Proof.Machine

/-- `scramble(c)` (R180): `G ^ (c + 1) mod P`, or `OutOfRange` when `c ≥ N`. -/
def scramble (p g c : Nat) : Answer Nat :=
  if p - 1 ≤ c then .err .outOfRange c else .ok (modexp g (c + Config.offset) p)

/-- The search of R185 over at most `fuel` counters from `c` on, with `x = G ^ (c + 1) mod P`. -/
def searchCounter (p g target : Nat) : Nat → Nat → Nat → Option Nat
  | 0, _, _ => none
  | fuel + 1, c, x =>
    if x = target then some c else searchCounter p g target fuel (c + 1) (modmul x g p)

/-- `unscramble(v)` (R184), by exhaustive search of `[0, N)` (R185): the least counter that gives `v`,
or `InvalidCode`. -/
def unscramble (p g v : Nat) : Answer Nat :=
  if v = 0 ∨ p ≤ v then .err .invalidCode v
  else
    match searchCounter p g v (p - 1) 0 (g % p) with
    | some c => .ok c
    | none => .err .invalidCode v

/-- SCRAMBLE: `RES <- G ^ (OPA + 1) mod P` (R183). -/
def execScramble (s : State) : StepResult :=
  whenConfigured s (conclude s (scramble s.p.toNat s.g.toNat s.opa.toNat) putRes)

/-- UNSCRAMBLE: `RES <-` the counter `c` with `G ^ (c + 1) mod P = OPA` (R186). -/
def execUnscramble (s : State) : StepResult :=
  whenConfigured s (conclude s (unscramble s.p.toNat s.g.toNat s.opa.toNat) putRes)

end Sys2Proof.Machine
end

