-- ==== Sys2Proof/Machine/Composite.lean ====
section
/-! DEFINITION. The composite commands ENCODE and DECODE (44_encode_decode.md). -/

namespace Sys2Proof.Machine

/-- One unit's answer fed to the next: an error passes through (R220, R224). -/
def chain {α β : Type} (a : Answer α) (f : α → Answer β) : Answer β :=
  match a with
  | .ok x => f x
  | .err k info => .err k info

/-- `encode(c)` (R220): scramble, then to_string. -/
def encodeCounter (p g radix width : Nat) (syms : List Byte) (c : Nat) : Answer (List Byte) :=
  chain (scramble p g c) (toStr radix width syms)

/-- `decode(len, code)` (R224): from_string, then unscramble. -/
def decodeString (p g radix width : Nat) (syms : List Byte) (len : Nat) (code : List Byte) :
    Answer Nat :=
  chain (fromStr radix width syms len code) (unscramble p g)

/-- ENCODE: counter in `OPA` to code string in `CODE[]` (R221). `RES` is not written. -/
def execEncode (s : State) : StepResult :=
  whenConfigured s
    (conclude s
      (encodeCounter s.p.toNat s.g.toNat s.radix.toNat s.width.toNat (symbols s) s.opa.toNat)
      putString)

/-- DECODE: code string in `CODE[]` to counter in `RES` (R224). -/
def execDecode (s : State) : StepResult :=
  whenConfigured s
    (conclude s
      (decodeString s.p.toNat s.g.toNat s.radix.toNat s.width.toNat (symbols s) s.codelen.toNat
        (codeString s))
      putRes)

end Sys2Proof.Machine
end

