-- ==== Sys2Proof/Machine/Control.lean ====
section
/-! DEFINITION. NOP and VALIDATE (40_control_config.md). -/

namespace Sys2Proof.Machine

/-- NOP: do nothing and complete (R141). -/
def execNop (s : State) : StepResult := .next (succeed s)

/-- `f` holds of every `d` with `lo ≤ d < lo + 2 ^ k` and `d * d ≤ n`. Halving the range keeps the
evaluation shallow. -/
def allSmall (f : Nat → Bool) (n : Nat) : Nat → Nat → Bool
  | 0, lo => decide (n < lo * lo) || f lo
  | k + 1, lo => decide (n < lo * lo) || (allSmall f n k lo && allSmall f n k (lo + 2 ^ k))

/-- Check 5 of R142, by trial division by every `d` with `2 ≤ d` and `d * d ≤ P` (R144 (a)). For a
32-bit `P` such a `d` is below `2 ^ 16`. Log entry 9. -/
def checkPrime (p : Nat) : Bool := decide (2 ≤ p) && allSmall (fun d => p % d != 0) p 16 2

/-- No proper divisor: `k` is `n` itself or `g ^ k` is not 1 modulo `p`. -/
def notAnOrder (p g n k : Nat) : Bool := k == n || modexp g k p != 1

/-- Check 7 of R142: `G ^ k mod P ≠ 1` for every divisor `k < P - 1` of `P - 1`. With `P` prime and
`1 ≤ G ≤ P - 1`, which checks 5 and 6 have found, the least `k ≥ 1` with `G ^ k mod P = 1` divides
`P - 1`, so this says that it is `P - 1` (R144). The divisors come in pairs `d`, `(P - 1) / d` with
`d * d ≤ P - 1`. Log entry 9. -/
def checkPrimitiveRoot (p g : Nat) : Bool :=
  allSmall (fun d => (p - 1) % d != 0 ||
    (notAnOrder p g (p - 1) d && notAnOrder p g (p - 1) ((p - 1) / d))) (p - 1) 16 1

/-- Check 4 of R142: the symbols are pairwise different. -/
def checkDistinct : List Byte → Bool
  | [] => true
  | c :: cs => !cs.contains c && checkDistinct cs

/-- The eight checks of R142 in their order: the number of the first that fails, or none. A later check
is evaluated only when all earlier ones hold (R143). -/
def firstFailingCheck (p g radix width : Nat) (syms : List Byte) : Option Nat :=
  if ¬ (2 ≤ radix ∧ radix ≤ Config.rMax) then some 1
  else if ¬ (1 ≤ width ∧ width ≤ Config.wMax) then some 2
  else if ¬ (radix ^ width ≤ Config.vMax) then some 3
  else if checkDistinct syms = false then some 4
  else if checkPrime p = false then some 5
  else if ¬ (1 ≤ g ∧ g ≤ p - 1) then some 6
  else if checkPrimitiveRoot p g = false then some 7
  else if ¬ (p ≤ radix ^ width) then some 8
  else none

/-- VALIDATE (R143): `CFGV <- 1` when all checks hold, else `CFGV <- 0` and `ConfigInvalid` with the
number of the first failing check. -/
def execValidate (s : State) : StepResult :=
  match firstFailingCheck s.p.toNat s.g.toNat s.radix.toNat s.width.toNat (symbols s) with
  | none => .next (succeed (putCfgv true s))
  | some k => .next (raise (putCfgv false s) .configInvalid k)

end Sys2Proof.Machine
end

