-- ==== Sys2Proof/Machine/Dispatch.lean ====
section
/-! DEFINITION. `exec`: the outcome of each command applied to the state, the completion step of
60_exceptions.md R246 for a word that decodes. Whether the engine may take it (`BUSY = 1`) is the
engine's test, in Machine/Engine.lean. -/

namespace Sys2Proof.Machine

def exec (i : Instr) (s : State) : Host.Outcome State Fault Refusal :=
  match i with
  | .nop => Sys2Proof.Machine.execNop s
  | .validate => Sys2Proof.Machine.execValidate s
  | .modexp => Sys2Proof.Machine.execModexp s
  | .modinv => Sys2Proof.Machine.execModinv s
  | .scramble => Sys2Proof.Machine.execScramble s
  | .unscramble => Sys2Proof.Machine.execUnscramble s
  | .tostr => Sys2Proof.Machine.execTostr s
  | .fromstr => Sys2Proof.Machine.execFromstr s
  | .encode => Sys2Proof.Machine.execEncode s
  | .decode => Sys2Proof.Machine.execDecode s

end Sys2Proof.Machine
end

