-- ==== Sys2Proof/Machine/Engine.lean ====
section
/-! DEFINITION. The steps of the three agents (00_scope.md R8): the engine's completion
(60_exceptions.md R246), the host's transactions and waits (20_memory.md R80 to R83, 30_encoding.md
R118), and reset (70_reset_and_hazards.md R280), in the order the agenda gives. -/

namespace Sys2Proof.Machine

/-- The engine's one kind of step (R246): decode `CMDW`, then the command's outcome, or
`IllegalCommand(CMDW)` (R112, R115). Taken only when `BUSY = 1`. -/
def complete (s : State) : StepResult :=
  match Sys2Proof.decode s.cmdw with
  | .ok i => exec i s
  | .error _ => .next (raise s .illegalCommand s.cmdw.toNat)

/-- The reads of GETCODE once the length `len` is known: `CODE[0]` to `CODE[len - 1]` (R118). The buffer
has 32 entries, so a longer length reads all 32. Log entry 5. -/
def codeReads (len : Nat) : List AgentStep :=
  (List.range (min len Config.wMax)).map (fun j => .read (BitVec.ofNat 7 (0x20 + j)))

/-- The next agent step. With an empty agenda the engine completes a running command, which is what
weak fairness asks of it (R296), and an idle block stays as it is. A host in WAIT lets the engine
complete, then reads `STATUS` once with `BUSY = 0` (R118). An `engine` entry when `BUSY = 0` finds no
step enabled. Log entries 1 and 4. -/
def agentStep (s : State) : StepResult :=
  match s.agenda with
  | [] => if s.busy then complete s else .next s
  | .read a :: rest => .next (hostRead (setAgenda s rest) a)
  | .write a v :: rest => .next (portWrite (setAgenda s rest) a v)
  | .wait :: rest =>
    if s.busy then complete s else .next (hostRead (setAgenda s rest) (regAddr .status))
  | .getCode :: rest =>
    .next (hostRead (setAgenda s (codeReads s.codelen.toNat ++ rest)) (regAddr .codelen))
  | .engine :: rest => if s.busy then complete (setAgenda s rest) else .next (setAgenda s rest)
  | .reset :: rest => .next (takeReset (setAgenda s rest))

/-- A command word put where the engine takes its next one, as an accepted `CMD` write does (R111),
with the engine next to move. With an empty agenda a busy engine is next already. Log entry 3. -/
def presentCommand (s : State) (w : Word) : State :=
  match s.agenda with
  | [] => acceptCommand s w
  | x :: rest => setAgenda (acceptCommand s w) (.engine :: x :: rest)

end Sys2Proof.Machine
end

