-- ==== Sys2Proof/Machine/Step.lean ====
section
/-! DEFINITION. The step of the machine: the next agent step of the agenda. -/

namespace Sys2Proof.Machine

def step (s : State) : Host.Outcome State Fault Refusal := agentStep s

/-- The command of `nbits` bits `w` put where the next step runs it. -/
def State.withFetchWord (s : State) (nbits w : Nat) : State := presentCommand s (tableWord nbits w)

end Sys2Proof.Machine
end

