-- ==== Sys2Proof/Machine/HostScript.lean ====
section
/-! DEFINITION. What the host statements of 30_encoding.md R117 and R118 put on the agenda. -/

namespace Sys2Proof.Machine

/-- `WR <reg>, <val>` (R117). -/
def wrStep (r : Reg) (v : Word) : AgentStep := .write (regAddr r) v

/-- `RD <reg>` (R117). -/
def rdStep (r : Reg) : AgentStep := .read (regAddr r)

/-- Consecutive writes of `cs` to the word addresses from `base` on, modulo the 128 addresses of the port. -/
def writesFrom : Nat → List Word → List AgentStep
  | _, [] => []
  | base, c :: cs => .write (BitVec.ofNat 7 base) c :: writesFrom (base + 1) cs

/-- The expansion of one host statement (R117, R118). WAIT and GETCODE stay one entry each, because
their transactions depend on what is read.
DESIGN CHOICE, unsafe (log entry 12): R118 names no register for a symbol of SETCODE beyond the 32nd or
of SETALPHA beyond the 64th. Such a statement is not well formed (`HostStmt.wf`), `expandStmt` does not
test that, and its further writes go to the next word addresses: SETCODE's to `ALPHA[0]` on, SETALPHA's
past the last address to address 0x00 on. -/
def expandStmt : HostStmt → List AgentStep
  | .wr r v => [wrStep r v]
  | .rd r => [rdStep r]
  | .cmd i => [wrStep .cmd (encode i)]
  | .wait => [.wait]
  | .run i => [wrStep .cmd (encode i), .wait]
  | .ack => [wrStep .status 0x00000002#32]
  | .clrHaz => [wrStep .status 0x00000008#32]
  | .setAlpha cs => writesFrom 0x40 cs
  | .setCode cs => writesFrom 0x20 cs ++ [wrStep .codelen (Word.ofNat cs.length)]
  | .getCode => [.getCode]

/-- A host program is a finite sequence of statements (R299). -/
def expandProgram (prog : List HostStmt) : List AgentStep := prog.flatMap expandStmt

/-- A state whose agenda is the given host program. -/
def loadProgram (s : State) (prog : List HostStmt) : State := setAgenda s (expandProgram prog)

end Sys2Proof.Machine
end

