-- ==== Sys2Proof/Safety.lean ====
section
/-! DEFINITION. The terms in which claims speak: when a configuration is valid (40_control_config.md
R142), what every state a run reaches satisfies, what a command reads (30_encoding.md R114), which
errors a command can end with (60_exceptions.md R242), and when a run is over (70_reset_and_hazards.md
R299). -/

namespace Sys2Proof.Safety

open Sys2Proof.Machine

/-- The eight checks of R142, as the rule words them, over the natural numbers. -/
def CheckHolds (k : Nat) (s : State) : Prop :=
  match k with
  | 1 => 2 ≤ s.radix.toNat ∧ s.radix.toNat ≤ 64
  | 2 => 1 ≤ s.width.toNat ∧ s.width.toNat ≤ 32
  | 3 => s.radix.toNat ^ s.width.toNat ≤ 2 ^ 32
  | 4 => ∀ i j : Fin 64, i.val < j.val → j.val < s.radix.toNat → s.alpha.get i ≠ s.alpha.get j
  | 5 => 2 ≤ s.p.toNat ∧ ¬ ∃ d, 1 < d ∧ d < s.p.toNat ∧ d ∣ s.p.toNat
  | 6 => 1 ≤ s.g.toNat ∧ s.g.toNat ≤ s.p.toNat - 1
  | 7 => IsLeast {e | 1 ≤ e ∧ s.g.toNat ^ e % s.p.toNat = 1} (s.p.toNat - 1)
  | 8 => s.p.toNat ≤ s.radix.toNat ^ s.width.toNat
  | _ => True

/-- The configuration predicate `CfgOK` (R142): all eight checks. -/
def CfgOK (s : State) : Prop := ∀ k, 1 ≤ k → k ≤ 8 → CheckHolds k s

/-- `k` is the number of the first check that fails (R143). -/
def FirstFailing (k : Nat) (s : State) : Prop :=
  1 ≤ k ∧ k ≤ 8 ∧ ¬ CheckHolds k s ∧ ∀ j, 1 ≤ j → j < k → CheckHolds j s

/-- A configured block: `CFGV = 1`, and the configuration is valid, as every run guarantees (R145). -/
def Configured (s : State) : Prop := s.cfgv = true ∧ CfgOK s

/-- What every state a run reaches satisfies.
`configured` is R145. `running` is what an accepted `CMD` write leaves until completion (R111, R36).
`opcode` is `OP = CMDW[7:0]` (R44, R66). `kind` says that codes 11 to 255 are never produced (R240).
`detail` says that without an error `ERRINFO` is 0 (R241). -/
structure Inv (s : State) : Prop where
  configured : s.cfgv = true → CfgOK s
  running : s.busy = true → s.done = false ∧ s.err = 0#8 ∧ s.errinfo = 0#32
  opcode : s.op = s.cmdw.extractLsb' 0 8
  kind : s.err.toNat ≤ 10
  detail : s.err = 0#8 → s.errinfo = 0#32

/-- What `ERRINFO` can hold beside each error code that bounds it (R241): at most 15 bits for the first
offending symbol (code 3), a check number (code 6), 0 (codes 7 and 9), the command word (code 8), a
gcd of at least 2 (code 10). -/
structure ErrorDetail (s : State) : Prop where
  running : s.busy = true → s.err = 0#8
  invalidCharacter : s.err = 3#8 → s.errinfo.toNat < 32 * 256
  configInvalid : s.err = 6#8 → 1 ≤ s.errinfo.toNat ∧ s.errinfo.toNat ≤ 8
  notConfigured : s.err = 7#8 → s.errinfo = 0#32
  illegalCommand : s.err = 8#8 → s.errinfo = s.cmdw
  badOperand : s.err = 9#8 → s.errinfo = 0#32
  notInvertible : s.err = 10#8 → 2 ≤ s.errinfo.toNat

/-- A run is quiescent when nothing is left to do and `BUSY = 0` (R299). -/
def Quiescent (s : State) : Prop := s.agenda = [] ∧ s.busy = false

/-- The agendas at which the engine moves when `BUSY = 1`: nothing left to do, its own entry, or a host in
WAIT. Which they are is the model's choice (log entries 1 and 4). -/
def EngineTurn (s : State) : Prop :=
  s.agenda = [] ∨ (∃ rest, s.agenda = .engine :: rest) ∨ ∃ rest, s.agenda = .wait :: rest

/-- The word addresses of the configuration registers `P`, `G`, `RADIX`, `WIDTH` and `ALPHA[0..63]` (R40, R52). -/
abbrev ConfigAddr (a : PortAddr) : Prop :=
  a = 0x08#7 ∨ a = 0x09#7 ∨ a = 0x0B#7 ∨ a = 0x0C#7 ∨ 0x40 ≤ a.toNat

/-- From `s` with `BUSY = 0`, the command `i` is accepted and completes in `t` (R111, R246). -/
def Runs (i : Instr) (s t : State) : Prop := exec i (acceptCommand s (encode i)) = .next t

/-- The six commands that test `CFGV` (R251). -/
def needsConfig : Instr → Bool
  | .nop => false
  | .validate => false
  | .modexp => false
  | .modinv => false
  | .scramble => true
  | .unscramble => true
  | .tostr => true
  | .fromstr => true
  | .encode => true
  | .decode => true

/-- The commands that write `RES` on success (R32, R114). -/
def writesRes : Instr → Bool
  | .nop => false
  | .validate => false
  | .modexp => true
  | .modinv => true
  | .scramble => true
  | .unscramble => true
  | .tostr => false
  | .fromstr => true
  | .encode => false
  | .decode => true

/-- The commands that write `CODE[]` and `CODELEN` on success (R51, R60, R114). -/
def writesCode : Instr → Bool
  | .nop => false
  | .validate => false
  | .modexp => false
  | .modinv => false
  | .scramble => false
  | .unscramble => false
  | .tostr => true
  | .fromstr => false
  | .encode => true
  | .decode => false

/-- The error codes each command can end with (R242; codes of R240). -/
def errorCodes : Instr → List Byte
  | .nop => []
  | .validate => [6#8]
  | .modexp => [9#8]
  | .modinv => [9#8, 10#8]
  | .scramble => [7#8, 1#8]
  | .unscramble => [7#8, 4#8]
  | .tostr => [7#8, 5#8]
  | .fromstr => [7#8, 2#8, 3#8]
  | .encode => [7#8, 1#8, 5#8]
  | .decode => [7#8, 2#8, 3#8, 4#8]

/-- The two states agree on every register that the command reads (the table of R114). -/
def ReadsAgree (i : Instr) (s t : State) : Prop :=
  match i with
  | .nop => True
  | .validate => s.p = t.p ∧ s.g = t.g ∧ s.radix = t.radix ∧ s.width = t.width ∧ symbols s = symbols t
  | .modexp => s.opa = t.opa ∧ s.opb = t.opb ∧ s.opm = t.opm
  | .modinv => s.opa = t.opa ∧ s.opm = t.opm
  | .scramble => s.cfgv = t.cfgv ∧ s.p = t.p ∧ s.g = t.g ∧ s.opa = t.opa
  | .unscramble => s.cfgv = t.cfgv ∧ s.p = t.p ∧ s.g = t.g ∧ s.opa = t.opa
  | .tostr => s.cfgv = t.cfgv ∧ s.radix = t.radix ∧ s.width = t.width ∧ symbols s = symbols t ∧ s.opa = t.opa
  | .fromstr => s.cfgv = t.cfgv ∧ s.radix = t.radix ∧ s.width = t.width ∧ symbols s = symbols t ∧
      s.codelen = t.codelen ∧ codeString s = codeString t
  | .encode => s.cfgv = t.cfgv ∧ s.p = t.p ∧ s.g = t.g ∧ s.radix = t.radix ∧ s.width = t.width ∧
      symbols s = symbols t ∧ s.opa = t.opa
  | .decode => s.cfgv = t.cfgv ∧ s.p = t.p ∧ s.g = t.g ∧ s.radix = t.radix ∧ s.width = t.width ∧
      symbols s = symbols t ∧ s.codelen = t.codelen ∧ codeString s = codeString t

/-- The string in `CODE[]` spells the digits `d 0 … d (WIDTH - 1)` over the alphabet (R200, R205). -/
def Spells (s : State) (d : Nat → Nat) : Prop :=
  ∀ j, j < s.width.toNat → d j < s.radix.toNat ∧ ∃ c, s.code[j]? = some c ∧ s.alpha[d j]? = some c

/-- The number with the digits `d 0 … d (W - 1)`, most significant first (R200). -/
def digitsValue (radix width : Nat) (d : Nat → Nat) : Nat :=
  ∑ j ∈ Finset.range width, d j * radix ^ (width - 1 - j)

end Sys2Proof.Safety
end

