-- ==== Sys2Proof/Certificates/Slice0/Obligations.lean ====
section
/-! DEFINITION. The statements for the provers. Each formalises rules of spec/, named in its docstring.
Where a statement speaks of a command, `exec` is the completion of that command (60_exceptions.md R246)
and `Runs i s t` is its acceptance and completion (30_encoding.md R111 and R246). -/

open Sys2Proof Sys2Proof.Machine Sys2Proof.Safety

/-! ### Encoding -/

/-- R113: the ten command words of the opcode map, and three illegal words of R115. -/
def Obligations.CommandWordsOfTheMapDecode : Prop :=
  Sys2Proof.decode 0x00000000#32 = .ok .nop ∧ Sys2Proof.decode 0x00000001#32 = .ok .validate ∧
  Sys2Proof.decode 0x00000002#32 = .ok .modexp ∧ Sys2Proof.decode 0x00000003#32 = .ok .modinv ∧
  Sys2Proof.decode 0x00000004#32 = .ok .scramble ∧ Sys2Proof.decode 0x00000005#32 = .ok .unscramble ∧
  Sys2Proof.decode 0x00000006#32 = .ok .tostr ∧ Sys2Proof.decode 0x00000007#32 = .ok .fromstr ∧
  Sys2Proof.decode 0x00000008#32 = .ok .encode ∧ Sys2Proof.decode 0x00000009#32 = .ok .decode ∧
  Sys2Proof.decode 0x0000000A#32 = .error (.opcodeReserved 0x0A#8) ∧
  Sys2Proof.decode 0x00000102#32 = .error (.zeroFieldSet 0x000001#24) ∧
  Sys2Proof.decode 0x80000000#32 = .error (.zeroFieldSet 0x800000#24)

/-- R113: a word decodes to a command exactly when a row of the map matches it under the row's mask. -/
def Obligations.DecodeFollowsMatchAndMask : Prop :=
  ∀ (w : Word) (i : Instr),
    Sys2Proof.decode w = .ok i ↔ ∃ m k, (i, m, k) ∈ opcodeRows ∧ w &&& k = m

/-- R110, R112: decoding an encoded command gives it back, and a word that decodes is the encoding of
what it decodes to. -/
def Obligations.DecodeAndEncodeAgree : Prop :=
  (∀ i : Instr, i.wf = true → Sys2Proof.decode (encode i) = .ok i) ∧
  (∀ (w : Word) (i : Instr), Sys2Proof.decode w = .ok i → i.wf = true ∧ encode i = w)

/-- R112: a word is illegal exactly when bits 31:8 are not 0 or bits 7:0 exceed 9, and any other word is the
command whose opcode is bits 7:0. -/
def Obligations.IllegalWordsAreTheRest : Prop :=
  ∀ w : Word,
    ((∃ r, Sys2Proof.decode w = .error r) ↔ (256 ≤ w.toNat ∨ 9 < w.toNat % 256)) ∧
    (∀ i : Instr, Sys2Proof.decode w = .ok i → i.opcode.toNat = w.toNat % 256)

/-- R40, R67: the address map is one register per address and one address per register, and the
addresses without a register are the reserved ones. -/
def Obligations.AddressMapIsOneToOne : Prop :=
  (∀ r : Reg, regAt (regAddr r) = some r) ∧
  (∀ (a : PortAddr) (r : Reg), regAt a = some r → regAddr r = a) ∧
  (∀ a : PortAddr, regAt a = none ↔
    (5 ≤ a.toNat ∧ a.toNat ≤ 7) ∨ (0x0D ≤ a.toNat ∧ a.toNat ≤ 0x0F) ∨ (0x15 ≤ a.toNat ∧ a.toNat ≤ 0x1F))

/-! ### Steps and agents -/

/-- R246, R112: with `BUSY = 1` and a `CMDW` that decodes, the step is `exec` of the decoded command.
What the step adds around `exec` on this machine is only the model's agenda (log entry 1): an `engine`
entry is used up, an empty agenda and a host in WAIT are left as they are. -/
def Obligations.StepRunsTheDecodedCommand : Prop :=
  ∀ (s : State) (i : Instr), s.busy = true → Sys2Proof.decode s.cmdw = .ok i →
    (s.agenda = [] → step s = exec i s) ∧
    (∀ rest, s.agenda = .engine :: rest → step s = exec i { s with agenda := rest }) ∧
    (∀ rest, s.agenda = .wait :: rest → step s = exec i s)

/-- R115, R246: an illegal word completes with `IllegalCommand`: `ERR = 8`, `ERRINFO = CMDW`, no other
register changed. The three agendas at which the engine moves, and what becomes of them, are the model's
(log entries 1 and 4), as in StepRunsTheDecodedCommand. -/
def Obligations.IllegalWordCompletesWithIllegalCommand : Prop :=
  ∀ (s : State) (r : DecodeRefusal), s.busy = true → Sys2Proof.decode s.cmdw = .error r →
    (s.agenda = [] →
      step s = .next { s with err := 8#8, errinfo := s.cmdw, busy := false, done := true }) ∧
    (∀ rest, s.agenda = .engine :: rest →
      step s = .next { s with err := 8#8, errinfo := s.cmdw, busy := false, done := true, agenda := rest }) ∧
    (∀ rest, s.agenda = .wait :: rest →
      step s = .next { s with err := 8#8, errinfo := s.cmdw, busy := false, done := true })

/-- R298: every step has an effect: the machine never stops, in any state at all. -/
def Obligations.EveryStepAnswersANextState : Prop :=
  ∀ s : State, ∃ t, step s = .next t

/-- R82, R83, R90: a host transaction at the head of the agenda is the next step. The agenda and the list of
words read are the model's (log entries 1 and 2). -/
def Obligations.HostTransactionsAreSteps : Prop :=
  (∀ (s : State) (a : PortAddr) (rest : List AgentStep), s.agenda = .read a :: rest →
    step s = .next { s with agenda := rest, reads := portRead s a :: s.reads }) ∧
  (∀ (s : State) (a : PortAddr) (v : Word) (rest : List AgentStep), s.agenda = .write a v :: rest →
    step s = .next (portWrite { s with agenda := rest } a v))

/-- R111, R83, R288: a write to `CMD` while `BUSY = 0` writes exactly `CMDW`, `OP`, `BUSY`, `DONE`, `ERR`,
`ERRINFO`, whatever the word; while `BUSY = 1` it is dropped and sets `HAZ`. That the write stands at the head
of the agenda and is used up is the model's choice (log entry 1). -/
def Obligations.CmdWriteIsAccepted : Prop :=
  ∀ (s : State) (v : Word) (rest : List AgentStep), s.agenda = .write 0x02#7 v :: rest →
    (s.busy = false →
      step s = .next { s with cmdw := v, op := v.extractLsb' 0 8, busy := true, done := false,
                              err := 0#8, errinfo := 0#32, agenda := rest }) ∧
    (s.busy = true → step s = .next { s with haz := true, agenda := rest })

/-- R36: `BUSY` rises only at an accepted `CMD` write, and falls only at a completion step or a reset.
Which agendas are the engine's is the model's choice (log entries 1 and 4). -/
def Obligations.SequencerHasThreeTransitions : Prop :=
  ∀ s t : State, step s = .next t →
    (s.busy = false → t.busy = true → ∃ v rest, s.agenda = .write 0x02#7 v :: rest) ∧
    (s.busy = true → t.busy = false → EngineTurn s ∨ ∃ rest, s.agenda = .reset :: rest)

/-- R37, R44, R52: when the other three flags of `STATUS` change. `DONE` rises only at a completion and falls
only at an accepted `CMD` write, a write of 1 to `STATUS[1]` or a reset. `CFGV` rises only at a completion of
VALIDATE on a valid configuration, and falls only at a completion of VALIDATE on an invalid one, at an accepted
write to a configuration register or at a reset. `HAZ` rises only at a write while `BUSY = 1` and falls only at
a write of 1 to `STATUS[3]` or a reset. The heads of the agenda that stand for these events are the model's
choice (log entries 1, 4 and 6). -/
def Obligations.FlagsChangeOnlyAsTabled : Prop :=
  ∀ s t : State, step s = .next t →
    (s.done = false → t.done = true → s.busy = true ∧ t.busy = false ∧ EngineTurn s) ∧
    (s.done = true → t.done = false →
      (s.busy = false ∧ ∃ v rest, s.agenda = .write 0x02#7 v :: rest) ∨
      (∃ v rest, s.agenda = .write 0x03#7 v :: rest ∧ v.getLsbD 1 = true) ∨
      (∃ rest, s.agenda = .reset :: rest)) ∧
    (s.cfgv = false → t.cfgv = true →
      s.busy = true ∧ t.busy = false ∧ EngineTurn s ∧ s.cmdw = 0x00000001#32 ∧ CfgOK s) ∧
    (s.cfgv = true → t.cfgv = false →
      (s.busy = true ∧ t.busy = false ∧ EngineTurn s ∧ s.cmdw = 0x00000001#32 ∧ ¬ CfgOK s ∧ t.err = 6#8) ∨
      (s.busy = false ∧ ∃ a v rest, s.agenda = .write a v :: rest ∧ ConfigAddr a) ∨
      (∃ rest, s.agenda = .reset :: rest)) ∧
    (s.haz = false → t.haz = true → s.busy = true ∧ ∃ a v rest, s.agenda = .write a v :: rest) ∧
    (s.haz = true → t.haz = false →
      (∃ v rest, s.agenda = .write 0x03#7 v :: rest ∧ v.getLsbD 3 = true) ∨
      (∃ rest, s.agenda = .reset :: rest))

/-- R66, R92: while a command runs and does not complete, nothing of the block changes but `IE`, `HAZ` and
`DONE`: results appear only with the completion, and operands stay what they were at the `CMD` write.
`agenda` and `reads` are the model's (log entries 1 and 2). -/
def Obligations.RunningCommandSeesFrozenRegisters : Prop :=
  ∀ s t : State, s.busy = true → step s = .next t → t.busy = true →
    t = { s with ie := t.ie, haz := t.haz, done := t.done, agenda := t.agenda, reads := t.reads }

/-- R296: from every state with `BUSY = 1`, `BUSY` is 0 after finitely many steps. It rests on the agenda
being a finite list and on the engine moving when it is used up (log entry 1). -/
def Obligations.RunningCommandEnds : Prop :=
  ∀ s : State, s.busy = true → ∃ k t, Host.Core.run core k s = .next t ∧ t.busy = false

/-- R249: outside a completion, an accepted `CMD` write and a reset, the error record stays. That
a reset is an agenda entry is the model's choice (log entries 1 and 6). -/
def Obligations.ErrorRecordStaysUntilTheNextCommand : Prop :=
  ∀ s t : State, s.busy = t.busy → (∀ rest, s.agenda ≠ .reset :: rest) → step s = .next t →
    t.err = s.err ∧ t.errinfo = s.errinfo

/-! ### The register port -/

/-- R82: what a read of each word address returns, and that a read as a step changes nothing of the block. That
the read stands at the head of the agenda and is used up, and that the word goes to `reads`, are the model's
choices (log entries 1 and 2). -/
def Obligations.PortReadReturnsTheRegister : Prop :=
  ∀ s : State,
    (∀ (a : PortAddr) (rest : List AgentStep), s.agenda = .read a :: rest →
      step s = .next { s with agenda := rest, reads := portRead s a :: s.reads }) ∧
    portRead s 0x00#7 = 0x4D454501#32 ∧
    (portRead s 0x01#7).toNat = s.ie.toNat ∧
    portRead s 0x02#7 = 0#32 ∧
    (portRead s 0x03#7).toNat = s.busy.toNat + 2 * s.done.toNat + 4 * s.cfgv.toNat + 8 * s.haz.toNat +
      2 ^ 8 * s.err.toNat + 2 ^ 16 * s.op.toNat ∧
    portRead s 0x04#7 = s.errinfo ∧ portRead s 0x08#7 = s.p ∧ portRead s 0x09#7 = s.g ∧
    (portRead s 0x0A#7).toNat = s.p.toNat - 1 ∧
    portRead s 0x0B#7 = s.radix ∧ portRead s 0x0C#7 = s.width ∧
    portRead s 0x10#7 = s.opa ∧ portRead s 0x11#7 = s.opb ∧ portRead s 0x12#7 = s.opm ∧
    portRead s 0x13#7 = s.res ∧ portRead s 0x14#7 = s.codelen ∧
    (∀ (j : Nat) (h : j < 32), (portRead s (BitVec.ofNat 7 (0x20 + j))).toNat = (s.code[j]).toNat) ∧
    (∀ (i : Nat) (h : i < 64), (portRead s (BitVec.ofNat 7 (0x40 + i))).toNat = (s.alpha[i]).toNat) ∧
    (∀ a : PortAddr,
      (5 ≤ a.toNat ∧ a.toNat ≤ 7) ∨ (0x0D ≤ a.toNat ∧ a.toNat ≤ 0x0F) ∨
        (0x15 ≤ a.toNat ∧ a.toNat ≤ 0x1F) → portRead s a = 0#32)

/-- R42, R44: writes to `CTRL` and `STATUS` are performed whatever `BUSY` is, and never set `HAZ`. -/
def Obligations.ControlAndStatusWritesArePerformed : Prop :=
  ∀ (s : State) (v : Word),
    portWrite s 0x01#7 v = { s with ie := v.getLsbD 0 } ∧
    portWrite s 0x03#7 v = { s with done := if v.getLsbD 1 then false else s.done,
                                    haz := if v.getLsbD 3 then false else s.haz }

/-- R67, R86: a write to a read-only register or a reserved address changes nothing. -/
def Obligations.ReadOnlyAndReservedWritesAreIgnored : Prop :=
  ∀ (s : State) (a : PortAddr) (v : Word),
    a = 0x00#7 ∨ a = 0x04#7 ∨ a = 0x0A#7 ∨ a = 0x13#7 ∨ (5 ≤ a.toNat ∧ a.toNat ≤ 7) ∨
      (0x0D ≤ a.toNat ∧ a.toNat ≤ 0x0F) ∨ (0x15 ≤ a.toNat ∧ a.toNat ≤ 0x1F) →
    portWrite s a v = s

/-- R288: while `BUSY = 1` a write to any other register is dropped and sets `HAZ`. -/
def Obligations.BusyWritesAreDroppedAndSetHaz : Prop :=
  ∀ (s : State) (a : PortAddr) (v : Word), s.busy = true →
    a = 0x02#7 ∨ a = 0x08#7 ∨ a = 0x09#7 ∨ a = 0x0B#7 ∨ a = 0x0C#7 ∨ a = 0x10#7 ∨ a = 0x11#7 ∨
      a = 0x12#7 ∨ a = 0x14#7 ∨ 0x20 ≤ a.toNat →
    portWrite s a v = { s with haz := true }

/-- R83, class 3 with `BUSY = 0`: each register is written, and a configuration register clears `CFGV`. -/
def Obligations.IdleWritesArePerformed : Prop :=
  ∀ (s : State) (v : Word), s.busy = false →
    portWrite s 0x08#7 v = { s with p := v, cfgv := false } ∧
    portWrite s 0x09#7 v = { s with g := v, cfgv := false } ∧
    portWrite s 0x0B#7 v = { s with radix := v, cfgv := false } ∧
    portWrite s 0x0C#7 v = { s with width := v, cfgv := false } ∧
    portWrite s 0x10#7 v = { s with opa := v } ∧
    portWrite s 0x11#7 v = { s with opb := v } ∧
    portWrite s 0x12#7 v = { s with opm := v } ∧
    portWrite s 0x14#7 v = { s with codelen := v } ∧
    (∀ (j : Nat) (h : j < 32), portWrite s (BitVec.ofNat 7 (0x20 + j)) v =
      { s with code := s.code.set j (BitVec.ofNat 8 v.toNat) }) ∧
    (∀ (i : Nat) (h : i < 64), portWrite s (BitVec.ofNat 7 (0x40 + i)) v =
      { s with alpha := s.alpha.set i (BitVec.ofNat 8 v.toNat), cfgv := false })

/-- R52: an accepted write to a configuration register clears `CFGV` whatever the value; a dropped one
changes neither the register nor `CFGV`; no write to another address changes `CFGV`. -/
def Obligations.ConfigurationWritesClearCfgv : Prop :=
  ∀ (s : State) (a : PortAddr) (v : Word),
    (s.busy = false → ConfigAddr a → (portWrite s a v).cfgv = false) ∧
    (s.busy = true → ConfigAddr a →
      (portWrite s a v).cfgv = s.cfgv ∧ portRead (portWrite s a v) a = portRead s a) ∧
    (¬ ConfigAddr a → (portWrite s a v).cfgv = s.cfgv)

/-- R60, R61: an accepted write to an entry of `CODE[]` or `ALPHA[]` stores `wdata[7:0]`; a read of the
entry returns that byte zero extended, and every other entry reads as before. -/
def Obligations.ByteEntriesReadBackTheirLowByte : Prop :=
  ∀ (s : State) (a b : PortAddr) (v : Word), s.busy = false → 0x20 ≤ a.toNat → 0x20 ≤ b.toNat →
    (portRead (portWrite s a v) a).toNat = v.toNat % 256 ∧
    (a ≠ b → portRead (portWrite s a v) b = portRead s b)

/-! ### The interrupt and reset -/

/-- R256: `irq = CTRL.IE and STATUS.DONE`. It rises at a completion when `IE = 1`, success or error alike,
and at a write that sets `IE` while `DONE = 1`; it falls at an accepted `CMD` write, at a write of 1 to
`STATUS[1]`, at a reset, and when `IE` is cleared. The agendas at which the engine completes and at which the
reset is taken are the model's choices (log entries 1, 4 and 6). -/
def Obligations.InterruptIsALevel : Prop :=
  (∀ s : State, irq s = (s.ie && s.done)) ∧
  (∀ s : State, s.busy = true → EngineTurn s → ∃ t, step s = .next t ∧ t.busy = false ∧ irq t = s.ie) ∧
  (∀ (s : State) (v : Word), s.done = true → irq (portWrite s 0x01#7 v) = v.getLsbD 0) ∧
  (∀ (s : State) (v : Word), s.busy = false → irq (portWrite s 0x02#7 v) = false) ∧
  (∀ (s : State) (v : Word), v.getLsbD 1 = true → irq (portWrite s 0x03#7 v) = false) ∧
  (∀ (s : State) (rest : List AgentStep), s.agenda = .reset :: rest → ∃ t, step s = .next t ∧ irq t = false)

/-- R70: the value of every piece of state after reset, and the reads it names. -/
def Obligations.ResetValues : Prop :=
  let s := State.reset
  s.opa = 0 ∧ s.opb = 0 ∧ s.opm = 0 ∧ s.res = 0 ∧ s.busy = false ∧ s.done = false ∧ s.cfgv = false ∧
  s.haz = false ∧ s.err = 0 ∧ s.op = 0 ∧ s.cmdw = 0 ∧ s.ie = false ∧ s.errinfo = 0 ∧ s.p = 0 ∧ s.g = 0 ∧
  s.radix = 0 ∧ s.width = 0 ∧ s.codelen = 0 ∧
  (∀ (j : Nat) (h : j < 32), s.code[j] = 0) ∧ (∀ (i : Nat) (h : i < 64), s.alpha[i] = 0) ∧
  portRead s 0x00#7 = 0x4D454501#32 ∧ irq s = false ∧ ∀ a : PortAddr, a ≠ 0x00#7 → portRead s a = 0#32

/-- R280, R281: reset is enabled in every state and maps it to the reset state, so a running command ends
with no completion. The host's remaining steps and what it has read are outside the block (log entry 6). -/
def Obligations.ResetFromEveryState : Prop :=
  ∀ (s : State) (rest : List AgentStep), s.agenda = .reset :: rest →
    step s = .next { State.reset with agenda := rest, reads := s.reads }

/-- R282: straight after reset the six configured commands end with `NotConfigured`, and VALIDATE with
`ConfigInvalid(1)`. -/
def Obligations.AfterResetNothingIsConfigured : Prop :=
  (∀ i : Instr, needsConfig i = true →
    ∃ t, Runs i State.reset t ∧ t.err = 7#8 ∧ t.errinfo = 0#32 ∧ t.cfgv = false) ∧
  (∃ t, Runs .validate State.reset t ∧ t.err = 6#8 ∧ t.errinfo = 1#32 ∧ t.cfgv = false)

/-! ### The commands -/

/-- R141: NOP writes no register and completes. With its acceptance, the old error record is cleared and
nothing else moves but `CMDW`, `OP`, `BUSY` and `DONE`. -/
def Obligations.NopOnlyCompletes : Prop :=
  ∀ s : State,
    exec .nop s = .next { s with busy := false, done := true } ∧
    Runs .nop s { s with cmdw := 0#32, op := 0#8, err := 0#8, errinfo := 0#32, busy := false, done := true }

/-- R143: VALIDATE of a configuration that meets all eight checks sets `CFGV`; of any other configuration it
clears `CFGV` and reports the number of the first failing check. -/
def Obligations.ValidateDecidesTheConfiguration : Prop :=
  ∀ s : State,
    (CfgOK s → exec .validate s = .next { s with cfgv := true, busy := false, done := true }) ∧
    (¬ CfgOK s → ∃ k, FirstFailing k s ∧
      exec .validate s = .next { s with cfgv := false, err := 6#8, errinfo := BitVec.ofNat 32 k,
                                        busy := false, done := true })

/-- R161: with `a, b < m < 2 ^ 32` the product fits 64 bits, and the step is the exact product reduced. -/
def Obligations.ModularProductIsExact : Prop :=
  ∀ a b m : Nat, a < m → b < m → m < 2 ^ 32 →
    a * b < 2 ^ 64 ∧ modmul a b m < m ∧ ∃ q, a * b = q * m + modmul a b m

/-- R163: MODEXP writes `OPA ^ OPB mod OPM`, the power taken over the naturals, or ends with
`BadOperand` when `OPM = 0`. -/
def Obligations.ModexpComputesThePower : Prop :=
  ∀ s : State,
    (s.opm = 0#32 → exec .modexp s = .next { s with err := 9#8, errinfo := 0#32, busy := false, done := true }) ∧
    (s.opm ≠ 0#32 → s.opa.toNat ^ s.opb.toNat % s.opm.toNat < s.opm.toNat ∧
      exec .modexp s = .next { s with res := BitVec.ofNat 32 (s.opa.toNat ^ s.opb.toNat % s.opm.toNat),
                                      busy := false, done := true })

/-- R165, R166: MODINV writes the unique inverse in `[0, OPM)`, or ends with `BadOperand` when `OPM = 0`, or
with `NotInvertible` and the gcd. -/
def Obligations.ModinvComputesTheInverse : Prop :=
  ∀ s : State,
    (s.opm = 0#32 → exec .modinv s = .next { s with err := 9#8, errinfo := 0#32, busy := false, done := true }) ∧
    (s.opm ≠ 0#32 → Nat.gcd (s.opa.toNat % s.opm.toNat) s.opm.toNat ≠ 1 →
      exec .modinv s = .next { s with
        err := 10#8, errinfo := BitVec.ofNat 32 (Nat.gcd (s.opa.toNat % s.opm.toNat) s.opm.toNat),
        busy := false, done := true }) ∧
    (s.opm ≠ 0#32 → Nat.gcd (s.opa.toNat % s.opm.toNat) s.opm.toNat = 1 →
      ∃ x, x < s.opm.toNat ∧ s.opa.toNat * x % s.opm.toNat = 1 % s.opm.toNat ∧
        (∀ y, y < s.opm.toNat → s.opa.toNat * y % s.opm.toNat = 1 % s.opm.toNat → y = x) ∧
        exec .modinv s = .next { s with res := BitVec.ofNat 32 x, busy := false, done := true })

/-- R180, R183: SCRAMBLE writes `G ^ (OPA + 1) mod P`, or ends with `NotConfigured` or `OutOfRange`. -/
def Obligations.ScrambleComputesThePower : Prop :=
  ∀ s : State,
    (s.cfgv = false → exec .scramble s = .next { s with
      err := 7#8, errinfo := 0#32, busy := false, done := true }) ∧
    (s.cfgv = true → s.p.toNat - 1 ≤ s.opa.toNat → exec .scramble s = .next { s with
      err := 1#8, errinfo := s.opa, busy := false, done := true }) ∧
    (s.cfgv = true → s.opa.toNat < s.p.toNat - 1 → exec .scramble s = .next { s with
      res := BitVec.ofNat 32 (s.g.toNat ^ (s.opa.toNat + 1) % s.p.toNat), busy := false, done := true })

/-- R184, R186: UNSCRAMBLE writes the least counter whose scrambled value is `OPA`, or ends with
`NotConfigured` or `InvalidCode`. -/
def Obligations.UnscrambleFindsTheLeastCounter : Prop :=
  ∀ s : State,
    (s.cfgv = false → exec .unscramble s = .next { s with
      err := 7#8, errinfo := 0#32, busy := false, done := true }) ∧
    (s.cfgv = true → s.opa = 0#32 ∨ s.p.toNat ≤ s.opa.toNat → exec .unscramble s = .next { s with
      err := 4#8, errinfo := s.opa, busy := false, done := true }) ∧
    (s.cfgv = true → s.opa ≠ 0#32 → s.opa.toNat < s.p.toNat →
      (∀ c, c < s.p.toNat - 1 → s.g.toNat ^ (c + 1) % s.p.toNat ≠ s.opa.toNat) →
      exec .unscramble s = .next { s with err := 4#8, errinfo := s.opa, busy := false, done := true }) ∧
    (∀ c, s.cfgv = true → s.opa ≠ 0#32 → s.opa.toNat < s.p.toNat → c < s.p.toNat - 1 →
      s.g.toNat ^ (c + 1) % s.p.toNat = s.opa.toNat →
      (∀ j, j < c → s.g.toNat ^ (j + 1) % s.p.toNat ≠ s.opa.toNat) →
      exec .unscramble s = .next { s with res := BitVec.ofNat 32 c, busy := false, done := true })

/-- R182, R184: under a valid configuration UNSCRAMBLE succeeds on every value in `[1, P - 1]`. -/
def Obligations.UnscrambleSucceedsOnEveryScrambledValue : Prop :=
  ∀ s : State, Configured s → 1 ≤ s.opa.toNat → s.opa.toNat ≤ s.p.toNat - 1 →
    ∃ c, c < s.p.toNat - 1 ∧ s.g.toNat ^ (c + 1) % s.p.toNat = s.opa.toNat ∧
      exec .unscramble s = .next { s with res := BitVec.ofNat 32 c, busy := false, done := true }

/-- R201, R203: TOSTR writes the digit of `OPA` at position `j` through the alphabet into `CODE[j]`,
`j < WIDTH`, and `CODELEN <- WIDTH`, for a radix and width that checks 1 and 2 allow; `Overflow` when
`OPA ≥ RADIX ^ WIDTH`. -/
def Obligations.TostrRendersTheDigits : Prop :=
  ∀ s : State,
    (s.cfgv = false → exec .tostr s = .next { s with
      err := 7#8, errinfo := 0#32, busy := false, done := true }) ∧
    (s.cfgv = true → s.radix.toNat ^ s.width.toNat ≤ s.opa.toNat → exec .tostr s = .next { s with
      err := 5#8, errinfo := s.opa, busy := false, done := true }) ∧
    (s.cfgv = true → CheckHolds 1 s → CheckHolds 2 s → s.opa.toNat < s.radix.toNat ^ s.width.toNat →
      ∃ buf : Vector Byte 32,
        exec .tostr s = .next { s with code := buf, codelen := s.width, busy := false, done := true } ∧
        (∀ j, j < s.width.toNat → buf[j]? =
          s.alpha[s.opa.toNat / s.radix.toNat ^ (s.width.toNat - 1 - j) % s.radix.toNat]?) ∧
        (∀ j, s.width.toNat ≤ j → buf[j]? = s.code[j]?))

/-- R205, R206: FROMSTR writes the number that the string spells, or ends with `InvalidLength`, tested first,
or `InvalidCharacter` at the first symbol that stands nowhere in `ALPHA[0..RADIX-1]`. -/
def Obligations.FromstrParsesTheString : Prop :=
  ∀ s : State,
    (s.cfgv = false → exec .fromstr s = .next { s with
      err := 7#8, errinfo := 0#32, busy := false, done := true }) ∧
    (s.cfgv = true → s.codelen ≠ s.width → exec .fromstr s = .next { s with
      err := 2#8, errinfo := s.codelen, busy := false, done := true }) ∧
    (∀ (j : Nat) (b : Byte), s.cfgv = true → CheckHolds 2 s → s.codelen = s.width → j < s.width.toNat →
      s.code[j]? = some b → (∀ i, i < s.radix.toNat → s.alpha[i]? ≠ some b) →
      (∀ k, k < j → ∃ i, i < s.radix.toNat ∧ s.alpha[i]? = s.code[k]?) →
      exec .fromstr s = .next { s with
        err := 3#8, errinfo := BitVec.ofNat 32 (256 * j + b.toNat), busy := false, done := true }) ∧
    (∀ d : Nat → Nat, Configured s → s.codelen = s.width → Spells s d →
      digitsValue s.radix.toNat s.width.toNat d < s.radix.toNat ^ s.width.toNat ∧
      exec .fromstr s = .next { s with
        res := BitVec.ofNat 32 (digitsValue s.radix.toNat s.width.toNat d), busy := false, done := true })

/-- R220 to R223: ENCODE writes the digits of `G ^ (OPA + 1) mod P` through the alphabet into
`CODE[0..WIDTH-1]`, and `CODELEN <- WIDTH`, whenever the configuration is valid and `OPA < N`, so `Overflow`
does not occur there; `OutOfRange` when `OPA ≥ N`. `RES` is not written. -/
def Obligations.EncodeRendersTheScrambledValue : Prop :=
  ∀ s : State,
    (s.cfgv = false → exec .encode s = .next { s with
      err := 7#8, errinfo := 0#32, busy := false, done := true }) ∧
    (s.cfgv = true → s.p.toNat - 1 ≤ s.opa.toNat → exec .encode s = .next { s with
      err := 1#8, errinfo := s.opa, busy := false, done := true }) ∧
    (Configured s → s.opa.toNat < s.p.toNat - 1 →
      ∃ buf : Vector Byte 32,
        exec .encode s = .next { s with code := buf, codelen := s.width, busy := false, done := true } ∧
        (∀ j, j < s.width.toNat → (buf[j]? =
          s.alpha[s.g.toNat ^ (s.opa.toNat + 1) % s.p.toNat / s.radix.toNat ^ (s.width.toNat - 1 - j) %
            s.radix.toNat]?) ∧ ∃ i, i < s.radix.toNat ∧ buf[j]? = s.alpha[i]?) ∧
        (∀ j, s.width.toNat ≤ j → buf[j]? = s.code[j]?))

/-- R224: DECODE parses the string and unscrambles the number: `InvalidLength`, then `InvalidCharacter` at the
first bad symbol, then `InvalidCode` with the number when it is 0 or at least `P`, else the counter. -/
def Obligations.DecodeRecoversTheCounter : Prop :=
  ∀ s : State,
    (s.cfgv = false → exec .decode s = .next { s with
      err := 7#8, errinfo := 0#32, busy := false, done := true }) ∧
    (s.cfgv = true → s.codelen ≠ s.width → exec .decode s = .next { s with
      err := 2#8, errinfo := s.codelen, busy := false, done := true }) ∧
    (∀ (j : Nat) (b : Byte), s.cfgv = true → CheckHolds 2 s → s.codelen = s.width → j < s.width.toNat →
      s.code[j]? = some b → (∀ i, i < s.radix.toNat → s.alpha[i]? ≠ some b) →
      (∀ k, k < j → ∃ i, i < s.radix.toNat ∧ s.alpha[i]? = s.code[k]?) →
      exec .decode s = .next { s with
        err := 3#8, errinfo := BitVec.ofNat 32 (256 * j + b.toNat), busy := false, done := true }) ∧
    (∀ d : Nat → Nat, Configured s → s.codelen = s.width → Spells s d →
      digitsValue s.radix.toNat s.width.toNat d = 0 ∨
        s.p.toNat ≤ digitsValue s.radix.toNat s.width.toNat d →
      exec .decode s = .next { s with
        err := 4#8, errinfo := BitVec.ofNat 32 (digitsValue s.radix.toNat s.width.toNat d),
        busy := false, done := true }) ∧
    (∀ d : Nat → Nat, Configured s → s.codelen = s.width → Spells s d →
      1 ≤ digitsValue s.radix.toNat s.width.toNat d → digitsValue s.radix.toNat s.width.toNat d < s.p.toNat →
      ∃ c, c < s.p.toNat - 1 ∧
        s.g.toNat ^ (c + 1) % s.p.toNat = digitsValue s.radix.toNat s.width.toNat d ∧
        exec .decode s = .next { s with res := BitVec.ofNat 32 c, busy := false, done := true })

/-- R251: the six commands that begin with the `CFGV` test end with `NotConfigured` when `CFGV = 0`, whatever
else the registers hold; the other four do not read `CFGV`: another value of it changes nothing they do. -/
def Obligations.CfgvTestOfTheSixCommands : Prop :=
  ∀ (i : Instr) (s : State),
    (needsConfig i = true → s.cfgv = false →
      exec i s = .next { s with err := 7#8, errinfo := 0#32, busy := false, done := true }) ∧
    (needsConfig i = false → ∀ b : Bool, ∃ (t : State) (c : Bool),
      exec i s = .next t ∧ exec i { s with cfgv := b } = .next { t with cfgv := c })

/-! ### What commands leave alone -/

/-- R31, R32, R42, R45, R46, R51, R60, R61, R114: the frame of all ten commands. Operands, configuration,
alphabet, `IE`, `HAZ`, `OP`, `CMDW` and the host's side never change; `RES` only by the six commands that
write it; `CODE[]` and `CODELEN` only by TOSTR and ENCODE, and there no entry at or beyond `WIDTH`; `CFGV`
only by VALIDATE. There is no memory beside these registers. -/
def Obligations.CommandsWriteOnlyTheirRegisters : Prop :=
  ∀ (i : Instr) (s t : State), exec i s = .next t →
    t.opa = s.opa ∧ t.opb = s.opb ∧ t.opm = s.opm ∧ t.p = s.p ∧ t.g = s.g ∧ t.radix = s.radix ∧
    t.width = s.width ∧ t.alpha = s.alpha ∧ t.ie = s.ie ∧ t.haz = s.haz ∧ t.op = s.op ∧ t.cmdw = s.cmdw ∧
    t.agenda = s.agenda ∧ t.reads = s.reads ∧ t.busy = false ∧ t.done = true ∧
    (writesRes i = false → t.res = s.res) ∧
    (writesCode i = false → t.code = s.code ∧ t.codelen = s.codelen) ∧
    (∀ j : Nat, s.width.toNat ≤ j → t.code[j]? = s.code[j]?) ∧
    (i ≠ .validate → t.cfgv = s.cfgv)

/-- R247: a command that ends with an error writes the error record, `BUSY`, `DONE`, and `CFGV <- 0` when it is
VALIDATE; every other register holds what it held when the command was accepted. -/
def Obligations.AnErrorWritesOnlyItsRecord : Prop :=
  ∀ (i : Instr) (s t : State), Runs i s t → t.err ≠ 0#8 →
    t = { s with cmdw := encode i, op := i.opcode, err := t.err, errinfo := t.errinfo,
                 busy := false, done := true, cfgv := if i = .validate then false else s.cfgv }

/-- R242: each command can end only with the errors of its row. -/
def Obligations.CommandsRaiseOnlyTheirErrors : Prop :=
  ∀ (i : Instr) (s t : State), Runs i s t → t.err = 0#8 ∨ t.err ∈ errorCodes i

/-- R12: the outcome of a command depends only on the registers that the table of R114 says it reads: from two
states that agree on those, the error record is the same, and each of `RES`, `CODELEN`, `CFGV` and the entries
of `CODE[]` is given the same value or left alone in both. -/
def Obligations.OutcomeDependsOnlyOnTheOperands : Prop :=
  ∀ (i : Instr) (s₁ s₂ t₁ t₂ : State), ReadsAgree i s₁ s₂ → Runs i s₁ t₁ → Runs i s₂ t₂ →
    t₁.err = t₂.err ∧ t₁.errinfo = t₂.errinfo ∧
    (t₁.res = t₂.res ∨ (t₁.res = s₁.res ∧ t₂.res = s₂.res)) ∧
    (t₁.codelen = t₂.codelen ∨ (t₁.codelen = s₁.codelen ∧ t₂.codelen = s₂.codelen)) ∧
    (t₁.cfgv = t₂.cfgv ∨ (t₁.cfgv = s₁.cfgv ∧ t₂.cfgv = s₂.cfgv)) ∧
    (∀ j : Nat, t₁.code[j]? = t₂.code[j]? ∨ (t₁.code[j]? = s₁.code[j]? ∧ t₂.code[j]? = s₂.code[j]?))

/-! ### The laws of the functions -/

/-- R181, R182: under a valid configuration `scramble` is a bijection from `[0, N)` onto `[1, P - 1]`. -/
def Obligations.ScrambleIsABijection : Prop :=
  ∀ s : State, CfgOK s →
    (∀ c, c < s.p.toNat - 1 →
      ∃ v, 1 ≤ v ∧ v ≤ s.p.toNat - 1 ∧ scramble s.p.toNat s.g.toNat c = .ok v) ∧
    (∀ v, 1 ≤ v → v ≤ s.p.toNat - 1 →
      ∃! c, c < s.p.toNat - 1 ∧ scramble s.p.toNat s.g.toNat c = .ok v)

/-- R187: `RUN SCRAMBLE`, `WR OPA, RES`, `RUN UNSCRAMBLE` gives the counter back, and the other way round
gives the scrambled value back. -/
def Obligations.ScrambleAndUnscrambleAreInverse : Prop :=
  (∀ s : State, Configured s → s.opa.toNat < s.p.toNat - 1 →
    ∃ t u, Runs .scramble s t ∧ Runs .unscramble { t with opa := t.res } u ∧
      u.res = s.opa ∧ t.err = 0#8 ∧ u.err = 0#8) ∧
  (∀ s : State, Configured s → 1 ≤ s.opa.toNat → s.opa.toNat ≤ s.p.toNat - 1 →
    ∃ t u, Runs .unscramble s t ∧ Runs .scramble { t with opa := t.res } u ∧
      u.res = s.opa ∧ t.err = 0#8 ∧ u.err = 0#8)

/-- R207 (a): `RUN TOSTR` then `RUN FROMSTR` gives `OPA` back. -/
def Obligations.FromstrInvertsTostr : Prop :=
  ∀ s : State, Configured s → s.opa.toNat < s.radix.toNat ^ s.width.toNat →
    ∃ t u, Runs .tostr s t ∧ Runs .fromstr t u ∧ u.res = s.opa ∧ t.err = 0#8 ∧ u.err = 0#8

/-- R207 (b): a string of `WIDTH` alphabet symbols has a value below `RADIX ^ WIDTH`, and rendering it gives
the string back. -/
def Obligations.TostrInvertsFromstr : Prop :=
  ∀ s : State, Configured s → s.codelen = s.width →
    (∀ j, j < s.width.toNat → ∃ i, i < s.radix.toNat ∧ s.alpha[i]? = s.code[j]?) →
    ∃ t u, Runs .fromstr s t ∧ t.err = 0#8 ∧ t.res.toNat < s.radix.toNat ^ s.width.toNat ∧
      Runs .tostr { t with opa := t.res } u ∧ u.err = 0#8 ∧ u.code = s.code ∧ u.codelen = s.codelen

/-- R225: `RUN ENCODE` then `RUN DECODE` gives the counter back, and a string of alphabet symbols whose value
is in `[1, P - 1]` is given back by `RUN DECODE`, `WR OPA, RES`, `RUN ENCODE`. -/
def Obligations.EncodeAndDecodeAreInverse : Prop :=
  (∀ s : State, Configured s → s.opa.toNat < s.p.toNat - 1 →
    ∃ t u, Runs .encode s t ∧ Runs .decode t u ∧ u.res = s.opa ∧ t.err = 0#8 ∧ u.err = 0#8) ∧
  (∀ (s : State) (d : Nat → Nat), Configured s → s.codelen = s.width → Spells s d →
    1 ≤ digitsValue s.radix.toNat s.width.toNat d → digitsValue s.radix.toNat s.width.toNat d < s.p.toNat →
    ∃ t u, Runs .decode s t ∧ Runs .encode { t with opa := t.res } u ∧
      u.code = s.code ∧ u.codelen = s.codelen ∧ t.err = 0#8 ∧ u.err = 0#8)

/-- R226: distinct counters give strings that differ in some position. -/
def Obligations.DistinctCountersGetDistinctStrings : Prop :=
  ∀ (s : State) (x y : Word), Configured s → x.toNat < s.p.toNat - 1 → y.toNat < s.p.toNat - 1 → x ≠ y →
    ∃ t u, Runs .encode { s with opa := x } t ∧ Runs .encode { s with opa := y } u ∧
      ∃ j, j < s.width.toNat ∧ t.code[j]? ≠ u.code[j]?

/-! ### Invariants -/

/-- The reset state meets both invariants (R70). -/
def Obligations.ResetMeetsTheInvariants : Prop := Inv State.reset ∧ ErrorDetail State.reset

/-- R145, with R36, R44, R66, R111, R240, R241: every step keeps `Inv`: `CFGV = 1` only with a valid
configuration, no error and `DONE = 0` while a command runs, `OP = CMDW[7:0]`, only the eleven codes, and
`ERRINFO = 0` without an error. -/
def Obligations.EveryStepKeepsTheInvariant : Prop :=
  ∀ s t : State, Inv s → step s = .next t → Inv t

/-- R241: every step keeps what `ERRINFO` holds beside the error codes that bound it, 3 and 6 to 10. Beside
codes 1, 2, 4 and 5 it says nothing: `ERRINFO` is there an operand, a length or a number. -/
def Obligations.EveryStepKeepsTheErrorDetail : Prop :=
  ∀ s t : State, Inv s → ErrorDetail s → step s = .next t → ErrorDetail t

/-! ### Host statements -/

/-- R118, R246: `RUN <command>` from an idle block: the command is accepted, completes, and WAIT returns `STATUS`
with `BUSY = 0`. R118 leaves the number of polls open. That the engine moves while the host waits, that WAIT reads
`STATUS` once, and so that there are three steps and one new word in `reads`, is the model's choice (log entry 4);
so are the agenda and the list of words read (log entries 1 and 2). -/
def Obligations.RunStatementCompletes : Prop :=
  ∀ (s : State) (i : Instr) (rest : List AgentStep),
    s.busy = false → s.agenda = expandStmt (.run i) ++ rest →
    ∃ t, exec i (acceptCommand { s with agenda := .wait :: rest } (encode i)) = .next t ∧ t.busy = false ∧
      Host.Core.run core 3 s = .next { t with agenda := rest, reads := statusWord t :: s.reads }

/-- R118: `SETCODE` of at most 32 symbols on an idle block stores the low bytes in `CODE[0]` on, and
`CODELEN`, and changes nothing else. The agenda is the model's (log entry 1); more symbols than the buffer has
entries are no well-formed statement (log entry 12). -/
def Obligations.SetCodeLoadsTheString : Prop :=
  ∀ (s : State) (cs : List Word) (rest : List AgentStep),
    s.busy = false → (HostStmt.setCode cs).wf = true → s.agenda = expandStmt (.setCode cs) ++ rest →
    ∃ buf : Vector Byte 32,
      Host.Core.run core (cs.length + 1) s =
        .next { s with code := buf, codelen := BitVec.ofNat 32 cs.length, agenda := rest } ∧
      (∀ j, j < cs.length → buf[j]? = (cs[j]?).map (fun v => BitVec.ofNat 8 v.toNat)) ∧
      (∀ j, cs.length ≤ j → buf[j]? = s.code[j]?)

/-- R118: `SETALPHA` of 1 to 64 symbols on an idle block stores the low bytes in `ALPHA[0]` on, clears `CFGV`,
and changes nothing else. The agenda is the model's (log entry 1); more symbols than the table has entries are
no well-formed statement (log entry 12). -/
def Obligations.SetAlphaLoadsTheTable : Prop :=
  ∀ (s : State) (cs : List Word) (rest : List AgentStep),
    s.busy = false → cs ≠ [] → (HostStmt.setAlpha cs).wf = true →
    s.agenda = expandStmt (.setAlpha cs) ++ rest →
    ∃ table : Vector Byte 64,
      Host.Core.run core cs.length s = .next { s with alpha := table, cfgv := false, agenda := rest } ∧
      (∀ j, j < cs.length → table[j]? = (cs[j]?).map (fun v => BitVec.ofNat 8 v.toNat)) ∧
      (∀ j, cs.length ≤ j → table[j]? = s.alpha[j]?)

/-- R118: `GETCODE` returns `CODELEN`, then `CODE[0]` to `CODE[CODELEN-1]`, and changes nothing of the block.
`reads` is newest first. The agenda and the list of words read are the model's (log entries 1 and 2). -/
def Obligations.GetCodeReturnsTheString : Prop :=
  ∀ (s : State) (rest : List AgentStep), s.codelen.toNat ≤ 32 → s.agenda = .getCode :: rest →
    Host.Core.run core (s.codelen.toNat + 1) s = .next { s with
      agenda := rest,
      reads := ((s.code.toList.take s.codelen.toNat).map (fun b => BitVec.ofNat 32 b.toNat)).reverse ++
        s.codelen :: s.reads }
end

