-- ==== Sys2Proof/Laws/Arith.lean ====
section
/-! SUPPORT. What the arithmetic units compute: `modexp` is the power modulo `m` (R162, R164), and
`modinv` is the inverse or the gcd (R165). -/

namespace Sys2Proof.Machine

/-- The loop invariant of R164. -/
theorem modexpLoop_eq (m : Nat) (fuel r a x : Nat) (hr : r % m = r) (hx : x < 2 ^ fuel) :
    modexpLoop m fuel r a x = r * a ^ x % m := by
  induction fuel generalizing r a x with
  | zero =>
    have h0 : x = 0 := by simpa using hx
    simp [modexpLoop, h0, hr]
  | succ fuel ih =>
    unfold modexpLoop
    split
    · rename_i h0
      simp [h0, hr]
    · have hx2 : x / 2 < 2 ^ fuel := by rw [pow_succ] at hx; omega
      have hsq : (modmul a a m) ^ (x / 2) % m = a ^ (2 * (x / 2)) % m := by
        rw [modmul, ← Nat.pow_mod, ← pow_two, ← pow_mul]
      rw [ih _ _ _ (by split <;> simp [modmul, hr]) hx2]
      have hstep : ∀ q : Nat, q * modmul a a m ^ (x / 2) % m = q * a ^ (2 * (x / 2)) % m := by
        intro q
        rw [Nat.mul_mod, hsq, ← Nat.mul_mod]
      rw [hstep]
      split
      · rename_i hodd
        have hx' : x = 2 * (x / 2) + 1 := by omega
        conv_rhs => rw [hx', pow_succ]
        rw [modmul, Nat.mod_mul_mod]
        congr 1
        ring
      · have hx' : x = 2 * (x / 2) := by omega
        conv_rhs => rw [hx']

/-- R162: `modexp(b, e, m)` is `b ^ e mod m` over the naturals. -/
theorem modexp_eq (b e m : Nat) (he : e < 2 ^ 32) : modexp b e m = b ^ e % m := by
  rw [modexp, modexpLoop_eq m 32 _ _ _ (Nat.mod_mod _ _) he, Nat.mod_mul_mod, one_mul, ← Nat.pow_mod]

/-- The loop of R165 ends at the gcd, with the cofactor congruence it carries along. -/
theorem euclidLoop_spec (a m : Int) (fuel r0 r1 : Nat) (t0 t1 : Int) (hf : r1 < fuel)
    (h0 : m ∣ t0 * a - r0) (h1 : m ∣ t1 * a - r1) :
    (euclidLoop fuel r0 r1 t0 t1).1 = Nat.gcd r0 r1 ∧
      m ∣ (euclidLoop fuel r0 r1 t0 t1).2 * a - Nat.gcd r0 r1 := by
  induction fuel generalizing r0 r1 t0 t1 with
  | zero => omega
  | succ fuel ih =>
    unfold euclidLoop
    split
    · rename_i hz
      subst hz
      simpa using h0
    · rename_i hz
      have hmod : r0 - r0 / r1 * r1 = r0 % r1 := by
        have := Nat.div_add_mod r0 r1
        rw [Nat.mul_comm] at this
        omega
      have hlt : r0 % r1 < r1 := Nat.mod_lt _ (Nat.pos_of_ne_zero hz)
      have hgcd : Nat.gcd r1 (r0 % r1) = Nat.gcd r0 r1 := by
        rw [Nat.gcd_comm r1, ← Nat.gcd_rec, Nat.gcd_comm]
      have hcast : ((r0 % r1 : Nat) : Int) = (r0 : Int) - ((r0 / r1 : Nat) : Int) * r1 := by
        have := Nat.div_add_mod r0 r1
        push_cast
        have h2 := Int.mul_ediv_add_emod (r0 : Int) r1
        linarith
      rw [hmod]
      have key : m ∣ (t0 - ((r0 / r1 : Nat) : Int) * t1) * a - ((r0 % r1 : Nat) : Int) := by
        have hsplit : (t0 - ((r0 / r1 : Nat) : Int) * t1) * a - ((r0 % r1 : Nat) : Int) =
            t0 * a - r0 - ((r0 / r1 : Nat) : Int) * (t1 * a - r1) := by
          rw [hcast]
          ring
        rw [hsplit]
        exact dvd_sub h0 (Dvd.dvd.mul_left h1 _)
      have := ih r1 (r0 % r1) t1 _ (by omega) h1 key
      rwa [hgcd] at this

/-- R165 for every `a` and every `m ≥ 1`: the error outcome. -/
theorem modinv_of_gcd_ne_one (a m : Nat) (h : Nat.gcd (a % m) m ≠ 1) :
    modinv a m = .err .notInvertible (Nat.gcd (a % m) m) := by
  have hs := euclidLoop_spec (a : Int) m (a % m + 1) m (a % m) 0 1 (by omega) (by simp)
    (by rw [one_mul]; push_cast; exact Int.dvd_self_sub_emod)
  rw [Nat.gcd_comm] at hs
  unfold modinv
  split
  rename_i r t he
  rw [he] at hs
  simp only at hs
  rw [if_neg (by rw [hs.1]; exact h), hs.1]

/-- R165 for every `a` and every `m ≥ 1`: the inverse in `[0, m)`. -/
theorem modinv_of_gcd_eq_one (a m : Nat) (hm : 0 < m) (h : Nat.gcd (a % m) m = 1) :
    ∃ x, modinv a m = .ok x ∧ x < m ∧ a * x % m = 1 % m := by
  have hs := euclidLoop_spec (a : Int) m (a % m + 1) m (a % m) 0 1 (by omega) (by simp)
    (by rw [one_mul]; push_cast; exact Int.dvd_self_sub_emod)
  rw [Nat.gcd_comm, h] at hs
  unfold modinv
  split
  rename_i r t he
  rw [he] at hs
  simp only at hs
  have hmz : (m : Int) ≠ 0 := by omega
  have hnn : 0 ≤ t % (m : Int) := Int.emod_nonneg _ hmz
  have hlt : t % (m : Int) < m := Int.emod_lt_of_pos _ (by omega)
  refine ⟨(t % (m : Int)).toNat, by rw [if_pos hs.1], by omega, ?_⟩
  have hmodeq : (a : Int) * (t % m) ≡ 1 [ZMOD m] := by
    have h1 : (a : Int) * (t % m) ≡ a * t [ZMOD m] := (Int.mod_modEq t m).mul_left _
    have h2 : (a : Int) * t ≡ 1 [ZMOD m] := by
      apply Int.ModEq.symm
      rw [Int.modEq_iff_dvd]
      simpa [mul_comm] using hs.2
    exact h1.trans h2
  have hz : ((a * (t % (m : Int)).toNat : Nat) : Int) ≡ ((1 : Nat) : Int) [ZMOD m] := by
    push_cast
    rw [Int.toNat_of_nonneg hnn]
    simpa using hmodeq
  exact (Int.natCast_modEq_iff).1 hz

end Sys2Proof.Machine
end

