-- ==== Sys2Proof/Laws/Codec.lean ====
section
/-! SUPPORT. The codec functions and the code buffer (R60, R200, R201, R205). -/

namespace Sys2Proof.Machine

/-- What storing a string leaves in each entry of the code buffer. -/
theorem storeSymbols_getElem? (out : List Byte) (j : Nat) (buf : Vector Byte 32) (k : Nat) (hk : k < 32) :
    (storeSymbols out j buf)[k]? = if j ≤ k ∧ k < j + out.length then out[k - j]? else buf[k]? := by
  induction out generalizing j buf with
  | nil => simp [storeSymbols, show ¬ (j ≤ k ∧ k < j) by omega]
  | cons b bs ih =>
    rw [storeSymbols, ih]
    by_cases h1 : j + 1 ≤ k ∧ k < j + 1 + bs.length
    · have h2 : j ≤ k ∧ k < j + (b :: bs).length := by simp; omega
      rw [if_pos h1, if_pos h2, show k - j = (k - (j + 1)) + 1 by omega, List.getElem?_cons_succ]
    · rw [if_neg h1]
      by_cases h2 : k = j
      · subst h2
        simp [hk]
      · rw [Vector.getElem?_setIfInBounds_ne (Ne.symm h2)]
        have h3 : ¬ (j ≤ k ∧ k < j + (b :: bs).length) := by simp at h1 ⊢; omega
        rw [if_neg h3]

theorem toStr_of_lt (radix width : Nat) (syms : List Byte) (x : Nat) (h : x < radix ^ width) :
    toStr radix width syms x =
      .ok ((List.range width).map (fun j => syms.getD (digit radix width x j) 0)) := by
  rw [toStr, if_neg (by omega)]

theorem toStr_of_le (radix width : Nat) (syms : List Byte) (x : Nat) (h : radix ^ width ≤ x) :
    toStr radix width syms x = .err .overflow x := by
  rw [toStr, if_pos h]

theorem digit_lt (radix width x j : Nat) (h : 0 < radix) : digit radix width x j < radix :=
  Nat.mod_lt _ h

/-- The scan stops at the first symbol that is not in the alphabet, or takes them all (R205). -/
theorem parseFrom_cases (radix : Nat) (syms code : List Byte) (j v : Nat) :
    (∃ w, parseFrom radix syms code j v = .ok w ∧ ∀ c ∈ code, indexOf syms c ≠ none) ∨
      (∃ k c, code[k]? = some c ∧ indexOf syms c = none ∧
        (∀ m < k, ∀ b, code[m]? = some b → indexOf syms b ≠ none) ∧
        parseFrom radix syms code j v = .err .invalidCharacter ((j + k) <<< 8 ||| c.toNat)) := by
  induction code generalizing j v with
  | nil => exact .inl ⟨v, rfl, by simp⟩
  | cons b bs ih =>
    unfold parseFrom
    split
    · rename_i hn
      exact .inr ⟨0, b, rfl, hn, by simp, by simp⟩
    · rename_i i hi
      rcases ih (j + 1) (v * radix + i) with ⟨w, hw, hall⟩ | ⟨k, c, hk, hc, hm, he⟩
      · refine .inl ⟨w, hw, ?_⟩
        intro c hc
        rcases List.mem_cons.1 hc with h | h
        · rw [h, hi]
          simp
        · exact hall c h
      · refine .inr ⟨k + 1, c, by simpa using hk, hc, ?_, ?_⟩
        · intro m hm' b' hb'
          cases m with
          | zero =>
            have : b = b' := by simpa using hb'
            rw [← this, hi]
            simp
          | succ m => exact hm m (by omega) b' (by simpa using hb')
        · rw [he, show j + 1 + k = j + (k + 1) by omega]

/-- A symbol that stands at exactly one index of the alphabet is found there (R204). -/
theorem indexOf_of_unique (syms : List Byte) (c : Byte) (i : Nat) (hi : syms[i]? = some c)
    (hu : ∀ k, k < i → syms[k]? ≠ some c) : indexOf syms c = some i := by
  rw [indexOf, List.findIdx?_eq_some_iff_getElem]
  obtain ⟨h, hc⟩ := List.getElem?_eq_some_iff.1 hi
  refine ⟨h, by simp [hc], ?_⟩
  intro k hk
  have := hu k hk
  have hkl : k < syms.length := by omega
  rw [List.getElem?_eq_getElem hkl] at this
  simpa using this

/-- The value of a list of digits, most significant first, after `v`. -/
def digitsFold (radix : Nat) (v : Nat) (ds : List Nat) : Nat := ds.foldl (fun v i => v * radix + i) v

/-- The scan of R205 takes the digits of the symbols and accumulates them. -/
theorem parseFrom_of_digits (radix : Nat) (syms code : List Byte) (ds : List Nat) (j v : Nat)
    (h : code.map (indexOf syms) = ds.map some) :
    parseFrom radix syms code j v = .ok (digitsFold radix v ds) := by
  induction code generalizing ds j v with
  | nil =>
    cases ds with
    | nil => rfl
    | cons d ds => simp at h
  | cons b bs ih =>
    cases ds with
    | nil => simp at h
    | cons d ds =>
      simp only [List.map_cons, List.cons.injEq] at h
      unfold parseFrom
      rw [h.1]
      exact ih ds _ _ h.2

end Sys2Proof.Machine
end

