-- ==== Sys2Proof/Laws/Control.lean ====
section
/-! SUPPORT. The evaluated configuration checks agree with the checks as R142 words them (R144). -/

namespace Sys2Proof.Machine

theorem allSmall_iff (f : Nat → Bool) (n k lo : Nat) :
    allSmall f n k lo = true ↔ ∀ d, lo ≤ d → d < lo + 2 ^ k → d * d ≤ n → f d = true := by
  induction k generalizing lo with
  | zero =>
    simp only [allSmall, Bool.or_eq_true, decide_eq_true_eq, pow_zero]
    constructor
    · intro h d h1 h2 h3
      obtain rfl : d = lo := by omega
      rcases h with h | h
      · omega
      · exact h
    · intro h
      rcases Nat.lt_or_ge n (lo * lo) with h1 | h1
      · exact .inl h1
      · exact .inr (h lo (le_refl lo) (by omega) h1)
  | succ k ih =>
    simp only [allSmall, Bool.or_eq_true, Bool.and_eq_true, decide_eq_true_eq, ih, pow_succ]
    constructor
    · intro h d h1 h2 h3
      rcases h with h | ⟨hl, hr⟩
      · have := Nat.mul_le_mul h1 h1
        omega
      · rcases Nat.lt_or_ge d (lo + 2 ^ k) with h4 | h4
        · exact hl d h1 h4 h3
        · exact hr d h4 (by omega) h3
    · intro h
      exact .inr ⟨fun d h1 h2 h3 => h d h1 (by omega) h3, fun d h1 h2 h3 => h d (by omega) (by omega) h3⟩

theorem small_of_sq_le {d n : Nat} (h : d * d ≤ n) (hn : n < 2 ^ 32) : d < 2 ^ 16 := by
  by_contra hd
  have := Nat.mul_le_mul (Nat.le_of_not_lt hd) (Nat.le_of_not_lt hd)
  omega

/-- Check 5 decides primality of every 32-bit number (R144 (a)). -/
theorem checkPrime_iff (p : Nat) (hp : p < 2 ^ 32) : checkPrime p = true ↔ p.Prime := by
  rw [checkPrime, Bool.and_eq_true, decide_eq_true_eq, allSmall_iff, Nat.prime_def_le_sqrt]
  refine and_congr_right fun h2 => ⟨fun h m hm hs hd => ?_, fun h d hd _ hs => ?_⟩
  · have hs' := Nat.le_sqrt.1 hs
    have := h m hm (by have := small_of_sq_le hs' hp; omega) hs'
    simp [Nat.mod_eq_zero_of_dvd hd] at this
  · have := h d hd (Nat.le_sqrt.2 hs)
    simpa [Nat.dvd_iff_mod_eq_zero] using this

/-- A prime as R142 words it. -/
theorem prime_iff_no_divisor (p : Nat) : p.Prime ↔ 2 ≤ p ∧ ¬ ∃ d, 1 < d ∧ d < p ∧ d ∣ p := by
  rw [Nat.prime_def_lt]
  refine and_congr_right fun h2 => ⟨?_, ?_⟩
  · rintro h ⟨d, h1, hd, hdvd⟩
    have := h d hd hdvd
    omega
  · intro h m hm hd
    by_contra hne
    have : m ≠ 0 := by rintro rfl; rw [Nat.zero_dvd] at hd; omega
    exact h ⟨m, by omega, hm, hd⟩

theorem notAnOrder_iff (p g n k : Nat) (hk : k < 2 ^ 32) :
    notAnOrder p g n k = true ↔ k = n ∨ g ^ k % p ≠ 1 := by
  simp [notAnOrder, modexp_eq _ _ _ hk]

/-- Powers that are 1 modulo a prime, through the order of the residue. -/
theorem pow_mod_eq_one_iff (p g k : Nat) (hp : p.Prime) :
    g ^ k % p = 1 ↔ orderOf (g : ZMod p) ∣ k := by
  have h := ZMod.natCast_eq_natCast_iff (g ^ k) 1 p
  rw [Nat.ModEq, Nat.mod_eq_of_lt hp.one_lt, Nat.cast_pow, Nat.cast_one] at h
  rw [orderOf_dvd_iff_pow_eq_one, h]

theorem order_dvd_pred (p g : Nat) (hp : p.Prime) (hg : 1 ≤ g) (hgp : g ≤ p - 1) :
    orderOf (g : ZMod p) ∣ p - 1 := by
  have := Fact.mk hp
  refine orderOf_dvd_of_pow_eq_one (ZMod.pow_card_sub_one_eq_one ?_)
  rw [Ne, ZMod.natCast_eq_zero_iff]
  intro h
  have := Nat.le_of_dvd (by omega) h
  have := hp.two_le
  omega

/-- Check 7 decides the primitive-root property as R142 words it, where checks 5 and 6 hold (R144). -/
theorem checkPrimitiveRoot_iff (p g : Nat) (hp : p.Prime) (hp32 : p < 2 ^ 32) (hg : 1 ≤ g)
    (hgp : g ≤ p - 1) :
    checkPrimitiveRoot p g = true ↔ IsLeast {e | 1 ≤ e ∧ g ^ e % p = 1} (p - 1) := by
  have hp2 := hp.two_le
  have hord := order_dvd_pred p g hp hg hgp
  have hpos : 0 < orderOf (g : ZMod p) := Nat.pos_of_dvd_of_pos hord (by omega)
  rw [checkPrimitiveRoot, allSmall_iff]
  constructor
  · intro h
    have hle : p - 1 ≤ orderOf (g : ZMod p) := by
      by_contra hlt
      obtain ⟨e, he⟩ := hord
      have h1 : g ^ orderOf (g : ZMod p) % p = 1 := (pow_mod_eq_one_iff p g _ hp).2 dvd_rfl
      rcases Nat.le_total (orderOf (g : ZMod p)) e with hd | hd
      · have hsq : orderOf (g : ZMod p) * orderOf (g : ZMod p) ≤ p - 1 := by
          rw [he]
          exact Nat.mul_le_mul_left _ hd
        have := h _ (by omega) (by have := small_of_sq_le hsq (by omega); omega) hsq
        have hmod : (p - 1) % orderOf (g : ZMod p) = 0 := by rw [he]; simp
        simp only [hmod, bne_self_eq_false, Bool.false_or, Bool.and_eq_true] at this
        rw [notAnOrder_iff _ _ _ _ (by omega)] at this
        rcases this.1 with h3 | h3
        · omega
        · exact h3 h1
      · have he0 : 0 < e := by
          rcases Nat.eq_zero_or_pos e with h0 | h0
          · rw [h0] at he
            omega
          · exact h0
        have hsq : e * e ≤ p - 1 := by
          rw [he]
          exact Nat.mul_le_mul_right _ hd
        have := h e (by omega) (by have := small_of_sq_le hsq (by omega); omega) hsq
        have hmod : (p - 1) % e = 0 := by rw [he]; simp
        have hdiv : (p - 1) / e = orderOf (g : ZMod p) := by rw [he]; exact Nat.mul_div_cancel _ he0
        simp only [hmod, bne_self_eq_false, Bool.false_or, Bool.and_eq_true, hdiv] at this
        rw [notAnOrder_iff _ _ _ (orderOf (g : ZMod p)) (by omega)] at this
        rcases this.2 with h3 | h3
        · omega
        · exact h3 h1
    refine ⟨⟨by omega, (pow_mod_eq_one_iff p g _ hp).2 hord⟩, ?_⟩
    rintro k ⟨hk, hk1⟩
    exact hle.trans (Nat.le_of_dvd hk ((pow_mod_eq_one_iff p g k hp).1 hk1))
  · rintro ⟨-, hmin⟩ d hd - hsq
    have hmin' : ∀ k, 1 ≤ k → k = p - 1 ∨ k < p - 1 → k = p - 1 ∨ g ^ k % p ≠ 1 := by
      rintro k hk (h | h)
      · exact .inl h
      · refine .inr fun h1 => ?_
        have h2 : p - 1 ≤ k := hmin ⟨hk, h1⟩
        omega
    rcases Nat.eq_zero_or_pos ((p - 1) % d) with h0 | h0
    · have hdn : d ≤ p - 1 := by have := Nat.mul_le_mul_right d hd; omega
      have hq : (p - 1) / d ≤ p - 1 := Nat.div_le_self _ _
      have hq1 : 1 ≤ (p - 1) / d := Nat.div_pos hdn (by omega)
      simp only [h0, bne_self_eq_false, Bool.false_or, Bool.and_eq_true]
      rw [notAnOrder_iff _ _ _ _ (by omega), notAnOrder_iff _ _ _ _ (by omega)]
      exact ⟨hmin' _ hd (Nat.eq_or_lt_of_le hdn), hmin' _ hq1 (Nat.eq_or_lt_of_le hq)⟩
    · simp [Nat.pos_iff_ne_zero.1 h0]

theorem checkDistinct_iff (syms : List Byte) : checkDistinct syms = true ↔ syms.Nodup := by
  induction syms with
  | nil => simp [checkDistinct]
  | cons c cs ih => simp [checkDistinct, ih]

theorem symbols_getElem? (s : State) (i : Nat) :
    (symbols s)[i]? = if i < s.radix.toNat then s.alpha[i]? else none := by
  rw [symbols, List.getElem?_take]
  simp

/-- Check 4 as R142 words it. -/
theorem symbols_nodup_iff (s : State) : (symbols s).Nodup ↔ Safety.CheckHolds 4 s := by
  rw [List.nodup_iff_getElem?_ne_getElem?]
  simp only [Safety.CheckHolds, symbols_getElem?]
  constructor
  · intro h i j hij hj
    have hlen : j.val < (symbols s).length := by
      simp only [symbols, List.length_take, Vector.length_toList]
      omega
    have := h i.val j.val hij hlen
    rw [if_pos (by omega), if_pos hj] at this
    intro he
    apply this
    simp only [Vector.get_eq_getElem] at he
    rw [Vector.getElem?_eq_getElem i.isLt, Vector.getElem?_eq_getElem j.isLt]
    simp [he]
  · intro h i j hij hj
    simp only [symbols, List.length_take, Vector.length_toList] at hj
    rw [if_pos (by omega), if_pos (by omega)]
    have := h ⟨i, by omega⟩ ⟨j, by omega⟩ hij (by simp; omega)
    rw [Vector.getElem?_eq_getElem (by omega), Vector.getElem?_eq_getElem (by omega)]
    simpa [Vector.get_eq_getElem] using this

end Sys2Proof.Machine
end

