-- ==== Sys2Proof/Laws/State.lean ====
section
/-! SUPPORT. One lemma per field per update of the state: what the field holds afterwards. -/

namespace Sys2Proof.Machine

/-! ### succeed -/

section

variable (s : State)

@[simp] theorem succeed_opa : (succeed s).opa = s.opa := rfl
@[simp] theorem succeed_opb : (succeed s).opb = s.opb := rfl
@[simp] theorem succeed_opm : (succeed s).opm = s.opm := rfl
@[simp] theorem succeed_res : (succeed s).res = s.res := rfl
@[simp] theorem succeed_busy : (succeed s).busy = false := rfl
@[simp] theorem succeed_cmdw : (succeed s).cmdw = s.cmdw := rfl
@[simp] theorem succeed_ie : (succeed s).ie = s.ie := rfl
@[simp] theorem succeed_done : (succeed s).done = true := rfl
@[simp] theorem succeed_cfgv : (succeed s).cfgv = s.cfgv := rfl
@[simp] theorem succeed_haz : (succeed s).haz = s.haz := rfl
@[simp] theorem succeed_err : (succeed s).err = s.err := rfl
@[simp] theorem succeed_op : (succeed s).op = s.op := rfl
@[simp] theorem succeed_errinfo : (succeed s).errinfo = s.errinfo := rfl
@[simp] theorem succeed_p : (succeed s).p = s.p := rfl
@[simp] theorem succeed_g : (succeed s).g = s.g := rfl
@[simp] theorem succeed_radix : (succeed s).radix = s.radix := rfl
@[simp] theorem succeed_width : (succeed s).width = s.width := rfl
@[simp] theorem succeed_codelen : (succeed s).codelen = s.codelen := rfl
@[simp] theorem succeed_code : (succeed s).code = s.code := rfl
@[simp] theorem succeed_alpha : (succeed s).alpha = s.alpha := rfl
@[simp] theorem succeed_agenda : (succeed s).agenda = s.agenda := rfl
@[simp] theorem succeed_reads : (succeed s).reads = s.reads := rfl

end

/-! ### raise -/

section

variable (s : State) (k : ErrorKind) (info : Nat)

@[simp] theorem raise_opa : (raise s k info).opa = s.opa := rfl
@[simp] theorem raise_opb : (raise s k info).opb = s.opb := rfl
@[simp] theorem raise_opm : (raise s k info).opm = s.opm := rfl
@[simp] theorem raise_res : (raise s k info).res = s.res := rfl
@[simp] theorem raise_busy : (raise s k info).busy = false := rfl
@[simp] theorem raise_cmdw : (raise s k info).cmdw = s.cmdw := rfl
@[simp] theorem raise_ie : (raise s k info).ie = s.ie := rfl
@[simp] theorem raise_done : (raise s k info).done = true := rfl
@[simp] theorem raise_cfgv : (raise s k info).cfgv = s.cfgv := rfl
@[simp] theorem raise_haz : (raise s k info).haz = s.haz := rfl
@[simp] theorem raise_err : (raise s k info).err = kindCode k := rfl
@[simp] theorem raise_op : (raise s k info).op = s.op := rfl
@[simp] theorem raise_errinfo : (raise s k info).errinfo = Word.ofNat info := rfl
@[simp] theorem raise_p : (raise s k info).p = s.p := rfl
@[simp] theorem raise_g : (raise s k info).g = s.g := rfl
@[simp] theorem raise_radix : (raise s k info).radix = s.radix := rfl
@[simp] theorem raise_width : (raise s k info).width = s.width := rfl
@[simp] theorem raise_codelen : (raise s k info).codelen = s.codelen := rfl
@[simp] theorem raise_code : (raise s k info).code = s.code := rfl
@[simp] theorem raise_alpha : (raise s k info).alpha = s.alpha := rfl
@[simp] theorem raise_agenda : (raise s k info).agenda = s.agenda := rfl
@[simp] theorem raise_reads : (raise s k info).reads = s.reads := rfl

end

/-! ### acceptCommand -/

section

variable (s : State) (v : Word)

@[simp] theorem acceptCommand_opa : (acceptCommand s v).opa = s.opa := rfl
@[simp] theorem acceptCommand_opb : (acceptCommand s v).opb = s.opb := rfl
@[simp] theorem acceptCommand_opm : (acceptCommand s v).opm = s.opm := rfl
@[simp] theorem acceptCommand_res : (acceptCommand s v).res = s.res := rfl
@[simp] theorem acceptCommand_busy : (acceptCommand s v).busy = true := rfl
@[simp] theorem acceptCommand_cmdw : (acceptCommand s v).cmdw = v := rfl
@[simp] theorem acceptCommand_ie : (acceptCommand s v).ie = s.ie := rfl
@[simp] theorem acceptCommand_done : (acceptCommand s v).done = false := rfl
@[simp] theorem acceptCommand_cfgv : (acceptCommand s v).cfgv = s.cfgv := rfl
@[simp] theorem acceptCommand_haz : (acceptCommand s v).haz = s.haz := rfl
@[simp] theorem acceptCommand_err : (acceptCommand s v).err = 0 := rfl
@[simp] theorem acceptCommand_op : (acceptCommand s v).op = opcodeField v := rfl
@[simp] theorem acceptCommand_errinfo : (acceptCommand s v).errinfo = 0 := rfl
@[simp] theorem acceptCommand_p : (acceptCommand s v).p = s.p := rfl
@[simp] theorem acceptCommand_g : (acceptCommand s v).g = s.g := rfl
@[simp] theorem acceptCommand_radix : (acceptCommand s v).radix = s.radix := rfl
@[simp] theorem acceptCommand_width : (acceptCommand s v).width = s.width := rfl
@[simp] theorem acceptCommand_codelen : (acceptCommand s v).codelen = s.codelen := rfl
@[simp] theorem acceptCommand_code : (acceptCommand s v).code = s.code := rfl
@[simp] theorem acceptCommand_alpha : (acceptCommand s v).alpha = s.alpha := rfl
@[simp] theorem acceptCommand_agenda : (acceptCommand s v).agenda = s.agenda := rfl
@[simp] theorem acceptCommand_reads : (acceptCommand s v).reads = s.reads := rfl

end

/-! ### putRes -/

section

variable (s : State) (n : Nat)

@[simp] theorem putRes_opa : (putRes n s).opa = s.opa := rfl
@[simp] theorem putRes_opb : (putRes n s).opb = s.opb := rfl
@[simp] theorem putRes_opm : (putRes n s).opm = s.opm := rfl
@[simp] theorem putRes_res : (putRes n s).res = Word.ofNat n := rfl
@[simp] theorem putRes_busy : (putRes n s).busy = s.busy := rfl
@[simp] theorem putRes_cmdw : (putRes n s).cmdw = s.cmdw := rfl
@[simp] theorem putRes_ie : (putRes n s).ie = s.ie := rfl
@[simp] theorem putRes_done : (putRes n s).done = s.done := rfl
@[simp] theorem putRes_cfgv : (putRes n s).cfgv = s.cfgv := rfl
@[simp] theorem putRes_haz : (putRes n s).haz = s.haz := rfl
@[simp] theorem putRes_err : (putRes n s).err = s.err := rfl
@[simp] theorem putRes_op : (putRes n s).op = s.op := rfl
@[simp] theorem putRes_errinfo : (putRes n s).errinfo = s.errinfo := rfl
@[simp] theorem putRes_p : (putRes n s).p = s.p := rfl
@[simp] theorem putRes_g : (putRes n s).g = s.g := rfl
@[simp] theorem putRes_radix : (putRes n s).radix = s.radix := rfl
@[simp] theorem putRes_width : (putRes n s).width = s.width := rfl
@[simp] theorem putRes_codelen : (putRes n s).codelen = s.codelen := rfl
@[simp] theorem putRes_code : (putRes n s).code = s.code := rfl
@[simp] theorem putRes_alpha : (putRes n s).alpha = s.alpha := rfl
@[simp] theorem putRes_agenda : (putRes n s).agenda = s.agenda := rfl
@[simp] theorem putRes_reads : (putRes n s).reads = s.reads := rfl

end

/-! ### putString -/

section

variable (s : State) (out : List Byte)

@[simp] theorem putString_opa : (putString out s).opa = s.opa := rfl
@[simp] theorem putString_opb : (putString out s).opb = s.opb := rfl
@[simp] theorem putString_opm : (putString out s).opm = s.opm := rfl
@[simp] theorem putString_res : (putString out s).res = s.res := rfl
@[simp] theorem putString_busy : (putString out s).busy = s.busy := rfl
@[simp] theorem putString_cmdw : (putString out s).cmdw = s.cmdw := rfl
@[simp] theorem putString_ie : (putString out s).ie = s.ie := rfl
@[simp] theorem putString_done : (putString out s).done = s.done := rfl
@[simp] theorem putString_cfgv : (putString out s).cfgv = s.cfgv := rfl
@[simp] theorem putString_haz : (putString out s).haz = s.haz := rfl
@[simp] theorem putString_err : (putString out s).err = s.err := rfl
@[simp] theorem putString_op : (putString out s).op = s.op := rfl
@[simp] theorem putString_errinfo : (putString out s).errinfo = s.errinfo := rfl
@[simp] theorem putString_p : (putString out s).p = s.p := rfl
@[simp] theorem putString_g : (putString out s).g = s.g := rfl
@[simp] theorem putString_radix : (putString out s).radix = s.radix := rfl
@[simp] theorem putString_width : (putString out s).width = s.width := rfl
@[simp] theorem putString_codelen : (putString out s).codelen = s.width := rfl
@[simp] theorem putString_code : (putString out s).code = storeSymbols out 0 s.code := rfl
@[simp] theorem putString_alpha : (putString out s).alpha = s.alpha := rfl
@[simp] theorem putString_agenda : (putString out s).agenda = s.agenda := rfl
@[simp] theorem putString_reads : (putString out s).reads = s.reads := rfl

end

/-! ### putCfgv -/

section

variable (s : State) (b : Bool)

@[simp] theorem putCfgv_opa : (putCfgv b s).opa = s.opa := rfl
@[simp] theorem putCfgv_opb : (putCfgv b s).opb = s.opb := rfl
@[simp] theorem putCfgv_opm : (putCfgv b s).opm = s.opm := rfl
@[simp] theorem putCfgv_res : (putCfgv b s).res = s.res := rfl
@[simp] theorem putCfgv_busy : (putCfgv b s).busy = s.busy := rfl
@[simp] theorem putCfgv_cmdw : (putCfgv b s).cmdw = s.cmdw := rfl
@[simp] theorem putCfgv_ie : (putCfgv b s).ie = s.ie := rfl
@[simp] theorem putCfgv_done : (putCfgv b s).done = s.done := rfl
@[simp] theorem putCfgv_cfgv : (putCfgv b s).cfgv = b := rfl
@[simp] theorem putCfgv_haz : (putCfgv b s).haz = s.haz := rfl
@[simp] theorem putCfgv_err : (putCfgv b s).err = s.err := rfl
@[simp] theorem putCfgv_op : (putCfgv b s).op = s.op := rfl
@[simp] theorem putCfgv_errinfo : (putCfgv b s).errinfo = s.errinfo := rfl
@[simp] theorem putCfgv_p : (putCfgv b s).p = s.p := rfl
@[simp] theorem putCfgv_g : (putCfgv b s).g = s.g := rfl
@[simp] theorem putCfgv_radix : (putCfgv b s).radix = s.radix := rfl
@[simp] theorem putCfgv_width : (putCfgv b s).width = s.width := rfl
@[simp] theorem putCfgv_codelen : (putCfgv b s).codelen = s.codelen := rfl
@[simp] theorem putCfgv_code : (putCfgv b s).code = s.code := rfl
@[simp] theorem putCfgv_alpha : (putCfgv b s).alpha = s.alpha := rfl
@[simp] theorem putCfgv_agenda : (putCfgv b s).agenda = s.agenda := rfl
@[simp] theorem putCfgv_reads : (putCfgv b s).reads = s.reads := rfl

end

/-! ### setAgenda -/

section

variable (s : State) (l : List AgentStep)

@[simp] theorem setAgenda_opa : (setAgenda s l).opa = s.opa := rfl
@[simp] theorem setAgenda_opb : (setAgenda s l).opb = s.opb := rfl
@[simp] theorem setAgenda_opm : (setAgenda s l).opm = s.opm := rfl
@[simp] theorem setAgenda_res : (setAgenda s l).res = s.res := rfl
@[simp] theorem setAgenda_busy : (setAgenda s l).busy = s.busy := rfl
@[simp] theorem setAgenda_cmdw : (setAgenda s l).cmdw = s.cmdw := rfl
@[simp] theorem setAgenda_ie : (setAgenda s l).ie = s.ie := rfl
@[simp] theorem setAgenda_done : (setAgenda s l).done = s.done := rfl
@[simp] theorem setAgenda_cfgv : (setAgenda s l).cfgv = s.cfgv := rfl
@[simp] theorem setAgenda_haz : (setAgenda s l).haz = s.haz := rfl
@[simp] theorem setAgenda_err : (setAgenda s l).err = s.err := rfl
@[simp] theorem setAgenda_op : (setAgenda s l).op = s.op := rfl
@[simp] theorem setAgenda_errinfo : (setAgenda s l).errinfo = s.errinfo := rfl
@[simp] theorem setAgenda_p : (setAgenda s l).p = s.p := rfl
@[simp] theorem setAgenda_g : (setAgenda s l).g = s.g := rfl
@[simp] theorem setAgenda_radix : (setAgenda s l).radix = s.radix := rfl
@[simp] theorem setAgenda_width : (setAgenda s l).width = s.width := rfl
@[simp] theorem setAgenda_codelen : (setAgenda s l).codelen = s.codelen := rfl
@[simp] theorem setAgenda_code : (setAgenda s l).code = s.code := rfl
@[simp] theorem setAgenda_alpha : (setAgenda s l).alpha = s.alpha := rfl
@[simp] theorem setAgenda_agenda : (setAgenda s l).agenda = l := rfl
@[simp] theorem setAgenda_reads : (setAgenda s l).reads = s.reads := rfl

end

/-! ### hostRead -/

section

variable (s : State) (a : PortAddr)

@[simp] theorem hostRead_opa : (hostRead s a).opa = s.opa := rfl
@[simp] theorem hostRead_opb : (hostRead s a).opb = s.opb := rfl
@[simp] theorem hostRead_opm : (hostRead s a).opm = s.opm := rfl
@[simp] theorem hostRead_res : (hostRead s a).res = s.res := rfl
@[simp] theorem hostRead_busy : (hostRead s a).busy = s.busy := rfl
@[simp] theorem hostRead_cmdw : (hostRead s a).cmdw = s.cmdw := rfl
@[simp] theorem hostRead_ie : (hostRead s a).ie = s.ie := rfl
@[simp] theorem hostRead_done : (hostRead s a).done = s.done := rfl
@[simp] theorem hostRead_cfgv : (hostRead s a).cfgv = s.cfgv := rfl
@[simp] theorem hostRead_haz : (hostRead s a).haz = s.haz := rfl
@[simp] theorem hostRead_err : (hostRead s a).err = s.err := rfl
@[simp] theorem hostRead_op : (hostRead s a).op = s.op := rfl
@[simp] theorem hostRead_errinfo : (hostRead s a).errinfo = s.errinfo := rfl
@[simp] theorem hostRead_p : (hostRead s a).p = s.p := rfl
@[simp] theorem hostRead_g : (hostRead s a).g = s.g := rfl
@[simp] theorem hostRead_radix : (hostRead s a).radix = s.radix := rfl
@[simp] theorem hostRead_width : (hostRead s a).width = s.width := rfl
@[simp] theorem hostRead_codelen : (hostRead s a).codelen = s.codelen := rfl
@[simp] theorem hostRead_code : (hostRead s a).code = s.code := rfl
@[simp] theorem hostRead_alpha : (hostRead s a).alpha = s.alpha := rfl
@[simp] theorem hostRead_agenda : (hostRead s a).agenda = s.agenda := rfl
@[simp] theorem hostRead_reads : (hostRead s a).reads = portRead s a :: s.reads := rfl

end

/-! ### dropWrite -/

section

variable (s : State)

@[simp] theorem dropWrite_opa : (dropWrite s).opa = s.opa := rfl
@[simp] theorem dropWrite_opb : (dropWrite s).opb = s.opb := rfl
@[simp] theorem dropWrite_opm : (dropWrite s).opm = s.opm := rfl
@[simp] theorem dropWrite_res : (dropWrite s).res = s.res := rfl
@[simp] theorem dropWrite_busy : (dropWrite s).busy = s.busy := rfl
@[simp] theorem dropWrite_cmdw : (dropWrite s).cmdw = s.cmdw := rfl
@[simp] theorem dropWrite_ie : (dropWrite s).ie = s.ie := rfl
@[simp] theorem dropWrite_done : (dropWrite s).done = s.done := rfl
@[simp] theorem dropWrite_cfgv : (dropWrite s).cfgv = s.cfgv := rfl
@[simp] theorem dropWrite_haz : (dropWrite s).haz = true := rfl
@[simp] theorem dropWrite_err : (dropWrite s).err = s.err := rfl
@[simp] theorem dropWrite_op : (dropWrite s).op = s.op := rfl
@[simp] theorem dropWrite_errinfo : (dropWrite s).errinfo = s.errinfo := rfl
@[simp] theorem dropWrite_p : (dropWrite s).p = s.p := rfl
@[simp] theorem dropWrite_g : (dropWrite s).g = s.g := rfl
@[simp] theorem dropWrite_radix : (dropWrite s).radix = s.radix := rfl
@[simp] theorem dropWrite_width : (dropWrite s).width = s.width := rfl
@[simp] theorem dropWrite_codelen : (dropWrite s).codelen = s.codelen := rfl
@[simp] theorem dropWrite_code : (dropWrite s).code = s.code := rfl
@[simp] theorem dropWrite_alpha : (dropWrite s).alpha = s.alpha := rfl
@[simp] theorem dropWrite_agenda : (dropWrite s).agenda = s.agenda := rfl
@[simp] theorem dropWrite_reads : (dropWrite s).reads = s.reads := rfl

end

/-! ### writeCtrl -/

section

variable (s : State) (v : Word)

@[simp] theorem writeCtrl_opa : (writeCtrl s v).opa = s.opa := rfl
@[simp] theorem writeCtrl_opb : (writeCtrl s v).opb = s.opb := rfl
@[simp] theorem writeCtrl_opm : (writeCtrl s v).opm = s.opm := rfl
@[simp] theorem writeCtrl_res : (writeCtrl s v).res = s.res := rfl
@[simp] theorem writeCtrl_busy : (writeCtrl s v).busy = s.busy := rfl
@[simp] theorem writeCtrl_cmdw : (writeCtrl s v).cmdw = s.cmdw := rfl
@[simp] theorem writeCtrl_ie : (writeCtrl s v).ie = v.getLsbD 0 := rfl
@[simp] theorem writeCtrl_done : (writeCtrl s v).done = s.done := rfl
@[simp] theorem writeCtrl_cfgv : (writeCtrl s v).cfgv = s.cfgv := rfl
@[simp] theorem writeCtrl_haz : (writeCtrl s v).haz = s.haz := rfl
@[simp] theorem writeCtrl_err : (writeCtrl s v).err = s.err := rfl
@[simp] theorem writeCtrl_op : (writeCtrl s v).op = s.op := rfl
@[simp] theorem writeCtrl_errinfo : (writeCtrl s v).errinfo = s.errinfo := rfl
@[simp] theorem writeCtrl_p : (writeCtrl s v).p = s.p := rfl
@[simp] theorem writeCtrl_g : (writeCtrl s v).g = s.g := rfl
@[simp] theorem writeCtrl_radix : (writeCtrl s v).radix = s.radix := rfl
@[simp] theorem writeCtrl_width : (writeCtrl s v).width = s.width := rfl
@[simp] theorem writeCtrl_codelen : (writeCtrl s v).codelen = s.codelen := rfl
@[simp] theorem writeCtrl_code : (writeCtrl s v).code = s.code := rfl
@[simp] theorem writeCtrl_alpha : (writeCtrl s v).alpha = s.alpha := rfl
@[simp] theorem writeCtrl_agenda : (writeCtrl s v).agenda = s.agenda := rfl
@[simp] theorem writeCtrl_reads : (writeCtrl s v).reads = s.reads := rfl

end

/-! ### writeStatus -/

section

variable (s : State) (v : Word)

@[simp] theorem writeStatus_opa : (writeStatus s v).opa = s.opa := rfl
@[simp] theorem writeStatus_opb : (writeStatus s v).opb = s.opb := rfl
@[simp] theorem writeStatus_opm : (writeStatus s v).opm = s.opm := rfl
@[simp] theorem writeStatus_res : (writeStatus s v).res = s.res := rfl
@[simp] theorem writeStatus_busy : (writeStatus s v).busy = s.busy := rfl
@[simp] theorem writeStatus_cmdw : (writeStatus s v).cmdw = s.cmdw := rfl
@[simp] theorem writeStatus_ie : (writeStatus s v).ie = s.ie := rfl
@[simp] theorem writeStatus_done : (writeStatus s v).done = (s.done && !v.getLsbD 1) := rfl
@[simp] theorem writeStatus_cfgv : (writeStatus s v).cfgv = s.cfgv := rfl
@[simp] theorem writeStatus_haz : (writeStatus s v).haz = (s.haz && !v.getLsbD 3) := rfl
@[simp] theorem writeStatus_err : (writeStatus s v).err = s.err := rfl
@[simp] theorem writeStatus_op : (writeStatus s v).op = s.op := rfl
@[simp] theorem writeStatus_errinfo : (writeStatus s v).errinfo = s.errinfo := rfl
@[simp] theorem writeStatus_p : (writeStatus s v).p = s.p := rfl
@[simp] theorem writeStatus_g : (writeStatus s v).g = s.g := rfl
@[simp] theorem writeStatus_radix : (writeStatus s v).radix = s.radix := rfl
@[simp] theorem writeStatus_width : (writeStatus s v).width = s.width := rfl
@[simp] theorem writeStatus_codelen : (writeStatus s v).codelen = s.codelen := rfl
@[simp] theorem writeStatus_code : (writeStatus s v).code = s.code := rfl
@[simp] theorem writeStatus_alpha : (writeStatus s v).alpha = s.alpha := rfl
@[simp] theorem writeStatus_agenda : (writeStatus s v).agenda = s.agenda := rfl
@[simp] theorem writeStatus_reads : (writeStatus s v).reads = s.reads := rfl

end

/-! ### reset -/

section

variable (s : State)

@[simp] theorem reset_opa : State.reset.opa = 0 := rfl
@[simp] theorem reset_opb : State.reset.opb = 0 := rfl
@[simp] theorem reset_opm : State.reset.opm = 0 := rfl
@[simp] theorem reset_res : State.reset.res = 0 := rfl
@[simp] theorem reset_busy : State.reset.busy = false := rfl
@[simp] theorem reset_cmdw : State.reset.cmdw = 0 := rfl
@[simp] theorem reset_ie : State.reset.ie = false := rfl
@[simp] theorem reset_done : State.reset.done = false := rfl
@[simp] theorem reset_cfgv : State.reset.cfgv = false := rfl
@[simp] theorem reset_haz : State.reset.haz = false := rfl
@[simp] theorem reset_err : State.reset.err = 0 := rfl
@[simp] theorem reset_op : State.reset.op = 0 := rfl
@[simp] theorem reset_errinfo : State.reset.errinfo = 0 := rfl
@[simp] theorem reset_p : State.reset.p = 0 := rfl
@[simp] theorem reset_g : State.reset.g = 0 := rfl
@[simp] theorem reset_radix : State.reset.radix = 0 := rfl
@[simp] theorem reset_width : State.reset.width = 0 := rfl
@[simp] theorem reset_codelen : State.reset.codelen = 0 := rfl
@[simp] theorem reset_code : State.reset.code = Vector.replicate 32 0 := rfl
@[simp] theorem reset_alpha : State.reset.alpha = Vector.replicate 64 0 := rfl
@[simp] theorem reset_agenda : State.reset.agenda = [] := rfl
@[simp] theorem reset_reads : State.reset.reads = [] := rfl
@[simp] theorem takeReset_opa : (takeReset s).opa = 0 := rfl
@[simp] theorem takeReset_opb : (takeReset s).opb = 0 := rfl
@[simp] theorem takeReset_opm : (takeReset s).opm = 0 := rfl
@[simp] theorem takeReset_res : (takeReset s).res = 0 := rfl
@[simp] theorem takeReset_busy : (takeReset s).busy = false := rfl
@[simp] theorem takeReset_cmdw : (takeReset s).cmdw = 0 := rfl
@[simp] theorem takeReset_ie : (takeReset s).ie = false := rfl
@[simp] theorem takeReset_done : (takeReset s).done = false := rfl
@[simp] theorem takeReset_cfgv : (takeReset s).cfgv = false := rfl
@[simp] theorem takeReset_haz : (takeReset s).haz = false := rfl
@[simp] theorem takeReset_err : (takeReset s).err = 0 := rfl
@[simp] theorem takeReset_op : (takeReset s).op = 0 := rfl
@[simp] theorem takeReset_errinfo : (takeReset s).errinfo = 0 := rfl
@[simp] theorem takeReset_p : (takeReset s).p = 0 := rfl
@[simp] theorem takeReset_g : (takeReset s).g = 0 := rfl
@[simp] theorem takeReset_radix : (takeReset s).radix = 0 := rfl
@[simp] theorem takeReset_width : (takeReset s).width = 0 := rfl
@[simp] theorem takeReset_codelen : (takeReset s).codelen = 0 := rfl
@[simp] theorem takeReset_code : (takeReset s).code = Vector.replicate 32 0 := rfl
@[simp] theorem takeReset_alpha : (takeReset s).alpha = Vector.replicate 64 0 := rfl
@[simp] theorem takeReset_agenda : (takeReset s).agenda = s.agenda := rfl
@[simp] theorem takeReset_reads : (takeReset s).reads = s.reads := rfl

end

end Sys2Proof.Machine
end

