-- ==== Sys2Proof/Laws/Ops.lean ====
section
/-! SUPPORT. One lemma per shared operation that says everything it can do. -/

namespace Sys2Proof.Machine

/-- A command ends with its updates applied, or with its error record and nothing else (R246, R247). -/
theorem conclude_eq_next {α : Type} (s t : State) (a : Answer α) (put : α → State → State) :
    conclude s a put = .next t ↔
      (∃ x, a = .ok x ∧ t = succeed (put x s)) ∨ (∃ k info, a = .err k info ∧ t = raise s k info) := by
  cases a with
  | ok x => simp [conclude, eq_comm]
  | err k info => simp [conclude, eq_comm]

@[simp] theorem conclude_ok {α : Type} (s : State) (x : α) (put : α → State → State) :
    conclude s (.ok x) put = .next (succeed (put x s)) := rfl

@[simp] theorem conclude_err {α : Type} (s : State) (k : ErrorKind) (info : Nat)
    (put : α → State → State) : conclude s (.err k info) put = .next (raise s k info) := rfl

/-- The `CFGV` test (R251): the body's step, or `NotConfigured`. -/
theorem whenConfigured_eq_next (s t : State) (body : StepResult) :
    whenConfigured s body = .next t ↔
      (s.cfgv = true ∧ body = .next t) ∨ (s.cfgv = false ∧ t = raise s .notConfigured 0) := by
  cases h : s.cfgv <;> simp [whenConfigured, h, eq_comm]

theorem whenConfigured_of_true (s : State) (body : StepResult) (h : s.cfgv = true) :
    whenConfigured s body = body := by
  simp [whenConfigured, h]

theorem whenConfigured_of_false (s : State) (body : StepResult) (h : s.cfgv = false) :
    whenConfigured s body = .next (raise s .notConfigured 0) := by
  simp [whenConfigured, h]

/-- A host write is ignored, always performed, dropped while `BUSY = 1`, or performed while `BUSY = 0`
(R83). -/
theorem writeReg_cases (s : State) (r : Reg) (v : Word) :
    (writeClass r = .ignored ∧ writeReg s r v = s) ∨
      (writeClass r = .always ∧ writeReg s r v = performWrite s r v) ∨
      (writeClass r = .gated ∧ s.busy = true ∧ writeReg s r v = dropWrite s) ∨
      (writeClass r = .gated ∧ s.busy = false ∧ writeReg s r v = performWrite s r v) := by
  unfold writeReg
  cases hc : writeClass r <;> cases hb : s.busy <;> simp

/-- A port write is a write to the register at the address, or nothing at a reserved address. -/
theorem portWrite_cases (s : State) (a : PortAddr) (v : Word) :
    (regAt a = none ∧ portWrite s a v = s) ∨ ∃ r, regAt a = some r ∧ portWrite s a v = writeReg s r v := by
  unfold portWrite
  cases h : regAt a <;> simp

/-- A host write never changes a result, the error record, the host's side or a running command (R83). -/
theorem writeReg_res (s : State) (r : Reg) (v : Word) : (writeReg s r v).res = s.res := by
  cases r <;> simp only [writeReg, writeClass] <;> (try split) <;> rfl

theorem writeReg_agenda (s : State) (r : Reg) (v : Word) : (writeReg s r v).agenda = s.agenda := by
  cases r <;> simp only [writeReg, writeClass] <;> (try split) <;> rfl

theorem writeReg_reads (s : State) (r : Reg) (v : Word) : (writeReg s r v).reads = s.reads := by
  cases r <;> simp only [writeReg, writeClass] <;> (try split) <;> rfl

end Sys2Proof.Machine
end

