-- ==== Sys2Proof/Laws/PerInstr.lean ====
section
/-! SUPPORT. Facts about every command as syntax, one lemma per constructor. -/

/-- The command is well formed and its word has the two fields of R110: `zero` is 0, `opcode` is the
command's own. -/
def Sys2Proof.Laws.EncodingShape.Statement (i : Sys2Proof.Instr) : Prop :=
  i.wf = true ∧ Sys2Proof.zeroField (Sys2Proof.encode i) = 0 ∧
    Sys2Proof.opcodeField (Sys2Proof.encode i) = i.opcode

theorem Sys2Proof.Laws.EncodingShape.nop : Sys2Proof.Laws.EncodingShape.Statement .nop := ⟨rfl, rfl, rfl⟩

theorem Sys2Proof.Laws.EncodingShape.validate :
    Sys2Proof.Laws.EncodingShape.Statement .validate := ⟨rfl, rfl, rfl⟩

theorem Sys2Proof.Laws.EncodingShape.modexp :
    Sys2Proof.Laws.EncodingShape.Statement .modexp := ⟨rfl, rfl, rfl⟩

theorem Sys2Proof.Laws.EncodingShape.modinv :
    Sys2Proof.Laws.EncodingShape.Statement .modinv := ⟨rfl, rfl, rfl⟩

theorem Sys2Proof.Laws.EncodingShape.scramble :
    Sys2Proof.Laws.EncodingShape.Statement .scramble := ⟨rfl, rfl, rfl⟩

theorem Sys2Proof.Laws.EncodingShape.unscramble :
    Sys2Proof.Laws.EncodingShape.Statement .unscramble := ⟨rfl, rfl, rfl⟩

theorem Sys2Proof.Laws.EncodingShape.tostr :
    Sys2Proof.Laws.EncodingShape.Statement .tostr := ⟨rfl, rfl, rfl⟩

theorem Sys2Proof.Laws.EncodingShape.fromstr :
    Sys2Proof.Laws.EncodingShape.Statement .fromstr := ⟨rfl, rfl, rfl⟩

theorem Sys2Proof.Laws.EncodingShape.encode :
    Sys2Proof.Laws.EncodingShape.Statement .encode := ⟨rfl, rfl, rfl⟩

theorem Sys2Proof.Laws.EncodingShape.decode :
    Sys2Proof.Laws.EncodingShape.Statement .decode := ⟨rfl, rfl, rfl⟩
end

