-- ==== Sys2Proof/Laws/Permutation.lean ====
section
/-! SUPPORT. What the permutation functions answer (R180, R184). -/

namespace Sys2Proof.Machine

theorem scramble_of_lt (p g c : Nat) (h : c < p - 1) (hp : p < 2 ^ 32) :
    scramble p g c = .ok (g ^ (c + 1) % p) := by
  rw [scramble, if_neg (by omega), Config.offset, modexp_eq _ _ _ (by omega)]

theorem scramble_of_le (p g c : Nat) (h : p - 1 ≤ c) : scramble p g c = .err .outOfRange c := by
  rw [scramble, if_pos h]

/-- The search of R185 finds the least counter in its range, or says that there is none. -/
theorem searchCounter_spec (p g target fuel c x : Nat) (hx : x = g ^ (c + 1) % p) :
    (∃ k, searchCounter p g target fuel c x = some k ∧ c ≤ k ∧ k < c + fuel ∧
        g ^ (k + 1) % p = target ∧ ∀ j, c ≤ j → j < k → g ^ (j + 1) % p ≠ target) ∨
      (searchCounter p g target fuel c x = none ∧
        ∀ j, c ≤ j → j < c + fuel → g ^ (j + 1) % p ≠ target) := by
  induction fuel generalizing c x with
  | zero => exact .inr ⟨rfl, fun j h1 h2 => by omega⟩
  | succ fuel ih =>
    unfold searchCounter
    split
    · rename_i he
      exact .inl ⟨c, rfl, le_refl c, by omega, by rw [← hx, he], fun j h1 h2 => by omega⟩
    · rename_i he
      have hnext : modmul x g p = g ^ (c + 1 + 1) % p := by
        rw [modmul, hx, Nat.mod_mul_mod, ← pow_succ]
      have hc : ∀ j, j = c → g ^ (j + 1) % p ≠ target := by
        rintro j rfl h
        exact he (by rw [hx, h])
      rcases ih (c + 1) _ hnext with ⟨k, hk, h1, h2, h3, h4⟩ | ⟨hn, h4⟩
      · refine .inl ⟨k, hk, by omega, by omega, h3, fun j hj hjk => ?_⟩
        rcases Nat.eq_or_lt_of_le hj with h | h
        · exact hc j h.symm
        · exact h4 j h hjk
      · refine .inr ⟨hn, fun j hj hjk => ?_⟩
        rcases Nat.eq_or_lt_of_le hj with h | h
        · exact hc j h.symm
        · exact h4 j h (by omega)

/-- R184: the least counter, where there is one. -/
theorem unscramble_of_least (p g v c : Nat) (hv : 0 < v) (hvp : v < p) (hc : c < p - 1)
    (he : g ^ (c + 1) % p = v) (hl : ∀ j, j < c → g ^ (j + 1) % p ≠ v) :
    unscramble p g v = .ok c := by
  unfold unscramble
  rw [if_neg (by omega)]
  rcases searchCounter_spec p g v (p - 1) 0 (g % p) (by simp) with ⟨k, hk, -, h2, h3, h4⟩ | ⟨hn, h4⟩
  · have hkc : k = c := by
      rcases Nat.lt_trichotomy k c with h | h | h
      · exact absurd h3 (hl k h)
      · exact h
      · exact absurd he (h4 c (Nat.zero_le _) h)
    rw [hk, hkc]
  · exact absurd he (h4 c (Nat.zero_le _) (by omega))

/-- R184: `InvalidCode` where no counter gives `v`. -/
theorem unscramble_of_none (p g v : Nat) (h : ∀ j, j < p - 1 → g ^ (j + 1) % p ≠ v) :
    unscramble p g v = .err .invalidCode v := by
  unfold unscramble
  split
  · rfl
  · rcases searchCounter_spec p g v (p - 1) 0 (g % p) (by simp) with ⟨k, hk, -, h2, h3, -⟩ | ⟨hn, -⟩
    · exact absurd h3 (h k (by omega))
    · rw [hn]

theorem unscramble_of_out_of_bounds (p g v : Nat) (h : v = 0 ∨ p ≤ v) :
    unscramble p g v = .err .invalidCode v := by
  rw [unscramble, if_pos h]

/-- `unscramble` answers a counter below `N` whose scrambled value is `v`, or `InvalidCode(v)`. -/
theorem unscramble_cases (p g v : Nat) :
    (∃ c, unscramble p g v = .ok c ∧ c < p - 1 ∧ g ^ (c + 1) % p = v ∧
        ∀ j, j < c → g ^ (j + 1) % p ≠ v) ∨
      unscramble p g v = .err .invalidCode v := by
  unfold unscramble
  split
  · exact .inr rfl
  · rcases searchCounter_spec p g v (p - 1) 0 (g % p) (by simp) with ⟨k, hk, -, h2, h3, h4⟩ | ⟨hn, -⟩
    · rw [hk]
      exact .inl ⟨k, rfl, by omega, h3, fun j hj => h4 j (Nat.zero_le _) hj⟩
    · rw [hn]
      exact .inr rfl

end Sys2Proof.Machine
end

