-- ==== Sys2Proof/Laws/Step.lean ====
section
/-! SUPPORT. What one step of the machine can be, and what one command can do. -/

namespace Sys2Proof.Machine

/-- Every command answers a next state: a success with its updates, or an error record (R246). -/
theorem exec_cases (i : Instr) (s : State) :
    (∃ n, exec i s = .next (succeed (putRes n s))) ∨
      (∃ out, exec i s = .next (succeed (putString out s))) ∨
      exec i s = .next (succeed s) ∨
      exec i s = .next (succeed (putCfgv true s)) ∨
      (∃ k, exec i s = .next (raise (putCfgv false s) .configInvalid k)) ∨
      (∃ k info, exec i s = .next (raise s k info)) := by
  have hres : ∀ a : Answer Nat, (∃ n, conclude s a putRes = .next (succeed (putRes n s))) ∨
      (∃ k info, conclude s a putRes = .next (raise s k info)) := by
    intro a
    cases a with
    | ok n => exact .inl ⟨n, rfl⟩
    | err k info => exact .inr ⟨k, info, rfl⟩
  have hstr : ∀ a : Answer (List Byte),
      (∃ out, conclude s a putString = .next (succeed (putString out s))) ∨
      (∃ k info, conclude s a putString = .next (raise s k info)) := by
    intro a
    cases a with
    | ok n => exact .inl ⟨n, rfl⟩
    | err k info => exact .inr ⟨k, info, rfl⟩
  have hcfg : ∀ body, whenConfigured s body = body ∨
      ∃ k info, whenConfigured s body = .next (raise s k info) := by
    intro body
    cases h : s.cfgv with
    | true => exact .inl (whenConfigured_of_true s body h)
    | false => exact .inr ⟨_, _, whenConfigured_of_false s body h⟩
  cases i with
  | nop => exact .inr (.inr (.inl rfl))
  | validate =>
    simp only [exec, execValidate]
    split
    · exact .inr (.inr (.inr (.inl rfl)))
    · exact .inr (.inr (.inr (.inr (.inl ⟨_, rfl⟩))))
  | modexp =>
    rcases hres (modexpAnswer s.opa.toNat s.opb.toNat s.opm.toNat) with h | h
    · exact .inl h
    · exact .inr (.inr (.inr (.inr (.inr h))))
  | modinv =>
    rcases hres (modinvAnswer s.opa.toNat s.opm.toNat) with h | h
    · exact .inl h
    · exact .inr (.inr (.inr (.inr (.inr h))))
  | scramble =>
    simp only [exec, execScramble]
    rcases hcfg (conclude s (scramble s.p.toNat s.g.toNat s.opa.toNat) putRes) with h | h
    · rw [h]
      rcases hres (scramble s.p.toNat s.g.toNat s.opa.toNat) with h | h
      · exact .inl h
      · exact .inr (.inr (.inr (.inr (.inr h))))
    · exact .inr (.inr (.inr (.inr (.inr h))))
  | unscramble =>
    simp only [exec, execUnscramble]
    rcases hcfg (conclude s (unscramble s.p.toNat s.g.toNat s.opa.toNat) putRes) with h | h
    · rw [h]
      rcases hres (unscramble s.p.toNat s.g.toNat s.opa.toNat) with h | h
      · exact .inl h
      · exact .inr (.inr (.inr (.inr (.inr h))))
    · exact .inr (.inr (.inr (.inr (.inr h))))
  | tostr =>
    simp only [exec, execTostr]
    rcases hcfg (conclude s (toStr s.radix.toNat s.width.toNat (symbols s) s.opa.toNat) putString)
      with h | h
    · rw [h]
      rcases hstr (toStr s.radix.toNat s.width.toNat (symbols s) s.opa.toNat) with h | h
      · exact .inr (.inl h)
      · exact .inr (.inr (.inr (.inr (.inr h))))
    · exact .inr (.inr (.inr (.inr (.inr h))))
  | fromstr =>
    simp only [exec, execFromstr]
    rcases hcfg (conclude s (fromStr s.radix.toNat s.width.toNat (symbols s) s.codelen.toNat
      (codeString s)) putRes) with h | h
    · rw [h]
      rcases hres (fromStr s.radix.toNat s.width.toNat (symbols s) s.codelen.toNat (codeString s))
        with h | h
      · exact .inl h
      · exact .inr (.inr (.inr (.inr (.inr h))))
    · exact .inr (.inr (.inr (.inr (.inr h))))
  | encode =>
    simp only [exec, execEncode]
    rcases hcfg (conclude s (encodeCounter s.p.toNat s.g.toNat s.radix.toNat s.width.toNat (symbols s)
      s.opa.toNat) putString) with h | h
    · rw [h]
      rcases hstr (encodeCounter s.p.toNat s.g.toNat s.radix.toNat s.width.toNat (symbols s)
        s.opa.toNat) with h | h
      · exact .inr (.inl h)
      · exact .inr (.inr (.inr (.inr (.inr h))))
    · exact .inr (.inr (.inr (.inr (.inr h))))
  | decode =>
    simp only [exec, execDecode]
    rcases hcfg (conclude s (decodeString s.p.toNat s.g.toNat s.radix.toNat s.width.toNat (symbols s)
      s.codelen.toNat (codeString s)) putRes) with h | h
    · rw [h]
      rcases hres (decodeString s.p.toNat s.g.toNat s.radix.toNat s.width.toNat (symbols s)
        s.codelen.toNat (codeString s)) with h | h
      · exact .inl h
      · exact .inr (.inr (.inr (.inr (.inr h))))
    · exact .inr (.inr (.inr (.inr (.inr h))))

/-- What the engine's step can be: the decoded command's completion, or `IllegalCommand` (R246). -/
theorem complete_cases (s : State) :
    (∃ i, Sys2Proof.decode s.cmdw = .ok i ∧ complete s = exec i s) ∨
      (∃ r, Sys2Proof.decode s.cmdw = .error r ∧
        complete s = .next (raise s .illegalCommand s.cmdw.toNat)) := by
  unfold complete
  split
  · exact .inl ⟨_, ‹_›, rfl⟩
  · exact .inr ⟨_, ‹_›, rfl⟩

/-- Every step of the machine is one of these, and which one the agenda says (R8, R246, R280). -/
theorem step_cases (s : State) :
    (s.busy = true ∧ step s = complete s ∧ (s.agenda = [] ∨ ∃ rest, s.agenda = .wait :: rest)) ∨
      (∃ rest, s.busy = true ∧ s.agenda = .engine :: rest ∧ step s = complete (setAgenda s rest)) ∨
      (s.busy = false ∧ s.agenda = [] ∧ step s = .next s) ∨
      (∃ rest, s.busy = false ∧ s.agenda = .engine :: rest ∧ step s = .next (setAgenda s rest)) ∨
      (∃ a later, step s = .next (hostRead (setAgenda s later) a)) ∨
      (∃ a v rest, s.agenda = .write a v :: rest ∧ step s = .next (portWrite (setAgenda s rest) a v)) ∨
      (∃ rest, s.agenda = .reset :: rest ∧ step s = .next (takeReset (setAgenda s rest))) := by
  unfold step agentStep
  cases ha : s.agenda with
  | nil => cases hb : s.busy <;> simp
  | cons x rest =>
    cases x with
    | read a => exact .inr (.inr (.inr (.inr (.inl ⟨a, rest, rfl⟩))))
    | write a v => exact .inr (.inr (.inr (.inr (.inr (.inl ⟨a, v, rest, rfl, rfl⟩)))))
    | wait =>
      cases hb : s.busy with
      | false => exact .inr (.inr (.inr (.inr (.inl ⟨regAddr .status, rest, by simp⟩))))
      | true => exact .inl ⟨rfl, by simp, .inr ⟨rest, rfl⟩⟩
    | getCode => exact .inr (.inr (.inr (.inr (.inl ⟨_, _, rfl⟩))))
    | engine =>
      cases hb : s.busy with
      | false => exact .inr (.inr (.inr (.inl ⟨rest, rfl, rfl, by simp⟩)))
      | true => exact .inr (.inl ⟨rest, rfl, rfl, by simp⟩)
    | reset => exact .inr (.inr (.inr (.inr (.inr (.inr ⟨rest, rfl, rfl⟩)))))

/-- Every completion answers a next state with `BUSY = 0` and `DONE = 1` and keeps `IE`, `HAZ` and the
host's side (R246). -/
theorem complete_done (s : State) :
    ∃ t, complete s = .next t ∧ t.busy = false ∧ t.done = true ∧ t.ie = s.ie ∧ t.haz = s.haz ∧
      t.agenda = s.agenda ∧ t.reads = s.reads := by
  rcases complete_cases s with ⟨i, -, h⟩ | ⟨r, -, h⟩
  · rw [h]
    rcases exec_cases i s with ⟨n, h⟩ | ⟨out, h⟩ | h | h | ⟨k, h⟩ | ⟨k, info, h⟩ <;>
      exact ⟨_, h, rfl, rfl, rfl, rfl, rfl, rfl⟩
  · exact ⟨_, h, rfl, rfl, rfl, rfl, rfl, rfl⟩

/-- When it is the engine's turn, the step is a completion, perhaps with an agenda entry used up. -/
theorem step_of_engineTurn (s : State) (hb : s.busy = true) (ht : Safety.EngineTurn s) :
    ∃ rest, step s = complete (setAgenda s rest) := by
  rcases ht with h | ⟨rest, h⟩ | ⟨rest, h⟩
  · exact ⟨s.agenda, show step s = complete s by simp [step, agentStep, h, hb]⟩
  · exact ⟨rest, by simp [step, agentStep, h, hb]⟩
  · exact ⟨s.agenda, show step s = complete s by simp [step, agentStep, h, hb]⟩

end Sys2Proof.Machine
end

