-- ==== Sys2Proof/Tests/Slice0.lean ====
section
/-! SUPPORT. Tests from 95_test_vectors.md (their ids in the docstrings), and for every statement with
hypotheses a concrete state that meets them. -/

namespace Sys2Proof.Tests

open Sys2Proof.Machine Sys2Proof.Safety

/-! ### Small states -/

/-- The reset state with a configuration written, and `CFGV` as given. -/
def config (p g radix width : Word) (syms : List Byte) (valid : Bool) : State :=
  { State.reset with p, g, radix, width, cfgv := valid, alpha := Vector.ofFn fun i => syms.getD i.val 0 }

/-- Configuration A of the vectors, validated: `P = 11`, `G = 2`, radix 4, width 2, "abcd". -/
def cfgA : State := config 11 2 4 2 [0x61, 0x62, 0x63, 0x64] true

/-- Configuration D of the vectors, the smallest, validated: `P = 2`, `G = 1`, radix 2, width 1, "01". -/
def cfgD : State := config 2 1 2 1 [0x30, 0x31] true

/-- A string in the code buffer, with its length. -/
def withCode (s : State) (len : Word) (cs : List Byte) : State :=
  { s with codelen := len, code := Vector.ofFn fun i => cs.getD i.val 0 }

/-- A running command word with an agenda. -/
def running (s : State) (w : Word) (agenda : List AgentStep) : State :=
  { acceptCommand s w with agenda := agenda }

/-- What a test looks at in the state a step answers. -/
def sees {α : Type} (r : StepResult) (f : State → α) : Option α :=
  match r with
  | .next t => some (f t)
  | .fault _ => none
  | .refused _ => none

/-- `RES` and the error record. -/
def record (s : State) : Word × Byte × Word := (s.res, s.err, s.errinfo)

/-- The first two entries of the code buffer, `CODELEN`, and the error record. -/
def string2 (s : State) : Byte × Byte × Word × Byte × Word :=
  (s.code.get 0, s.code.get 1, s.codelen, s.err, s.errinfo)

/-! ### Well-formedness (R110, R112, R117, R118) -/

theorem test_word_zero_field_refused : wordLegal 0x00000102#32 = false := by decide
theorem test_word_opcode_refused : wordLegal 0x0000000A#32 = false := by decide
theorem test_word_accepted : wordLegal 0x00000009#32 = true := by decide
theorem test_setalpha_of_65_refused : (HostStmt.setAlpha (List.replicate 65 0)).wf = false := by decide
theorem test_setcode_of_33_refused : (HostStmt.setCode (List.replicate 33 0)).wf = false := by decide
theorem test_setalpha_of_64_accepted : (HostStmt.setAlpha (List.replicate 64 0)).wf = true := by decide
theorem test_commands_accepted : ∀ i : Instr, i.wf = true := by intro i; cases i <;> decide

/-! ### Decoding: words written out from R110 and R113, `zero` then `opcode` -/

theorem test_decode_housekeeping :
    decode (0b000000000000000000000000#24 ++ 0b00000000#8) = .ok .nop ∧
    decode (0b000000000000000000000000#24 ++ 0b00000001#8) = .ok .validate := by decide
theorem test_decode_arithmetic :
    decode (0b000000000000000000000000#24 ++ 0b00000010#8) = .ok .modexp ∧
    decode (0b000000000000000000000000#24 ++ 0b00000011#8) = .ok .modinv := by decide
theorem test_decode_permutation :
    decode (0b000000000000000000000000#24 ++ 0b00000100#8) = .ok .scramble ∧
    decode (0b000000000000000000000000#24 ++ 0b00000101#8) = .ok .unscramble := by decide
theorem test_decode_codec :
    decode (0b000000000000000000000000#24 ++ 0b00000110#8) = .ok .tostr ∧
    decode (0b000000000000000000000000#24 ++ 0b00000111#8) = .ok .fromstr := by decide
theorem test_decode_composite :
    decode (0b000000000000000000000000#24 ++ 0b00001000#8) = .ok .encode ∧
    decode (0b000000000000000000000000#24 ++ 0b00001001#8) = .ok .decode := by decide
/-- T29a to T29c. -/
theorem test_decode_illegal :
    decode 0xFFFFFFFF#32 = .error (.zeroFieldSet 0xFFFFFF#24) ∧
    decode 0x80000000#32 = .error (.zeroFieldSet 0x800000#24) ∧
    decode 0x000000FF#32 = .error (.opcodeReserved 0xFF#8) := by decide
theorem test_decodeTableWord : decodeTableWord 32 5 = some .unscramble ∧ decodeTableWord 32 10 = none := by
  decide
/-- The placed command is the next step's, from reset: VALIDATE ends with `ConfigInvalid(1)` (T35). -/
theorem test_withFetchWord :
    sees (step (State.reset.withFetchWord 32 1)) statusWord = some 0x00010602#32 := by decide
theorem test_withFetchWord_agenda :
    sees (step ({ State.reset with agenda := [.reset] }.withFetchWord 32 0)) (fun s => (statusWord s, s.agenda)) =
      some (0x00000002#32, [.reset]) := by decide

/-! ### The port (T4 to T25) -/

/-- T6, T7. -/
theorem test_n_is_truncated :
    portRead (portWrite State.reset 0x08#7 0#32) 0x0A#7 = 0#32 ∧
    portRead (portWrite State.reset 0x08#7 0xFFFFFFFF#32) 0x0A#7 = 0xFFFFFFFE#32 := by decide
/-- T13. -/
theorem test_code_stores_low_byte :
    portRead (portWrite State.reset 0x23#7 0x12345678#32) 0x23#7 = 0x78#32 := by decide
/-- T14. -/
theorem test_alpha_stores_low_byte :
    portRead (portWrite State.reset 0x7F#7 0x1FF#32) 0x7F#7 = 0xFF#32 := by decide
/-- T18: an entry beyond `RADIX` clears `CFGV` too. -/
theorem test_alpha_write_clears_cfgv : statusWord (portWrite cfgA (0x40#7 + 40#7) 0#32) = 0#32 := by decide
/-- T23 to T25. -/
theorem test_status_w1c :
    let s := { cfgA with done := true, haz := true, op := 8 }
    statusWord s = 0x0008000E#32 ∧
    statusWord (portWrite s 0x03#7 0xFFFFFFFF#32) = 0x00080004#32 ∧
    statusWord (portWrite s 0x03#7 0xFFFFFFF5#32) = 0x0008000E#32 ∧
    statusWord (portWrite s 0x03#7 2#32) = 0x0008000C#32 := by decide

/-! ### Commands -/

/-- T26. -/
theorem test_nop : sees (exec .nop (acceptCommand State.reset 0)) statusWord = some 0x00000002#32 := by decide
/-- T29: an illegal word that ends in MODEXP's opcode. -/
theorem test_illegal :
    sees (step (running State.reset 0x00000102#32 [])) (fun s => (statusWord s, s.errinfo)) =
      some (0x00020802#32, 0x00000102#32) := by decide
/-- T30. -/
theorem test_validate_ok :
    sees (exec .validate (acceptCommand { cfgA with cfgv := false } 1)) statusWord = some 0x00010006#32 := by
  decide
/-- T36r: 3 has order 5 modulo 11. -/
theorem test_validate_fails_7 :
    sees (exec .validate (acceptCommand { cfgA with g := 3 } 1)) (fun s => (statusWord s, s.errinfo)) =
      some (0x00010602#32, 7#32) := by decide
/-- T40. -/
theorem test_modexp :
    sees (exec .modexp { State.reset with opa := 4, opb := 13, opm := 497 }) record = some (445, 0, 0) := by
  decide
/-- T54: the product needs 64 bits. -/
theorem test_modexp_wide :
    sees (exec .modexp { State.reset with opa := 0xFFFFFFFA, opb := 2, opm := 0xFFFFFFFB }) record =
      some (1, 0, 0) := by decide
/-- T62. -/
theorem test_modinv :
    sees (exec .modinv { State.reset with opa := 17, opm := 3120 }) record = some (2753, 0, 0) := by decide
/-- T77. -/
theorem test_modinv_gcd :
    sees (exec .modinv { State.reset with opa := 6, opm := 9, res := 77 }) record = some (77, 10, 3) := by
  decide
/-- T80: the last counter. -/
theorem test_scramble : sees (exec .scramble { cfgA with opa := 9 }) record = some (1, 0, 0) := by decide
/-- T80: `N` itself is out of range. -/
theorem test_scramble_range : sees (exec .scramble { cfgA with opa := 10 }) record = some (0, 1, 10) := by
  decide
/-- T81: `P - 1` is in range. -/
theorem test_unscramble : sees (exec .unscramble { cfgA with opa := 10 }) record = some (4, 0, 0) := by
  decide
/-- T81: 0 is not. -/
theorem test_unscramble_zero : sees (exec .unscramble { cfgA with opa := 0 }) record = some (0, 4, 0) := by
  decide
/-- T100. -/
theorem test_tostr :
    sees (exec .tostr { cfgA with opa := 9 }) string2 = some (0x63, 0x62, 2, 0, 0) := by decide
/-- T101. -/
theorem test_tostr_overflow :
    sees (exec .tostr (withCode { cfgA with opa := 16 } 7 [0x11, 0x22])) string2 =
      some (0x11, 0x22, 7, 5, 16) := by decide
/-- R206, example. -/
theorem test_fromstr : sees (exec .fromstr (withCode cfgA 2 [0x63, 0x62])) record = some (9, 0, 0) := by
  decide
/-- R206, example: the second symbol is bad. -/
theorem test_fromstr_character :
    sees (exec .fromstr (withCode cfgA 2 [0x63, 0x7A])) record = some (0, 3, 0x017A) := by decide
/-- R221, example. -/
theorem test_encode : sees (exec .encode { cfgA with opa := 3 }) string2 = some (0x62, 0x62, 2, 0, 0) := by
  decide
/-- R221: `RES` is not written. -/
theorem test_encode_res : sees (exec .encode { cfgA with opa := 3, res := 77 }) record = some (77, 0, 0) := by
  decide
/-- R224, example. -/
theorem test_decode : sees (exec .decode (withCode cfgA 2 [0x62, 0x62])) record = some (3, 0, 0) := by decide
/-- R224, example: 11 is `P`. -/
theorem test_decode_invalid :
    sees (exec .decode (withCode cfgA 2 [0x63, 0x64])) record = some (0, 4, 11) := by decide

/-! ### Valid configurations -/

/-- A configuration is valid when its eight checks are, the fourth and the fifth by their tests. -/
theorem cfgOK_of_checks (s : State) (h1 : CheckHolds 1 s) (h2 : CheckHolds 2 s) (h3 : CheckHolds 3 s)
    (h4 : checkDistinct (symbols s) = true) (h5 : s.p.toNat.Prime) (h6 : CheckHolds 6 s)
    (h7 : CheckHolds 7 s) (h8 : CheckHolds 8 s) : CfgOK s := by
  intro k hk hk'
  have h4' : CheckHolds 4 s := (symbols_nodup_iff s).1 ((checkDistinct_iff _).1 h4)
  have h5' : CheckHolds 5 s := (prime_iff_no_divisor _).1 h5
  have : k = 1 ∨ k = 2 ∨ k = 3 ∨ k = 4 ∨ k = 5 ∨ k = 6 ∨ k = 7 ∨ k = 8 := by omega
  rcases this with rfl | rfl | rfl | rfl | rfl | rfl | rfl | rfl <;> assumption

/-- Check 7 of configuration A: the powers of 2 modulo 11 (R143, example). -/
theorem cfgA_root : CheckHolds 7 cfgA := by
  refine ⟨⟨by decide, by decide⟩, ?_⟩
  rintro e ⟨h1, h2⟩
  by_contra h
  have h10 : e < 10 := Nat.lt_of_not_le h
  change 2 ^ e % 11 = 1 at h2
  interval_cases e <;> omega

theorem witness_cfgA : CfgOK cfgA :=
  cfgOK_of_checks _ ⟨by decide, by decide⟩ ⟨by decide, by decide⟩ (show 4 ^ 2 ≤ 2 ^ 32 by norm_num)
    (by decide) (show Nat.Prime 11 by norm_num) ⟨by decide, by decide⟩ cfgA_root
    (show 11 ≤ 4 ^ 2 by norm_num)

theorem witness_cfgD : CfgOK cfgD :=
  cfgOK_of_checks _ ⟨by decide, by decide⟩ ⟨by decide, by decide⟩ (show 2 ^ 1 ≤ 2 ^ 32 by norm_num)
    (by decide) (show Nat.Prime 2 by norm_num) ⟨by decide, by decide⟩
    ⟨⟨by decide, by decide⟩, fun _ h => h.1⟩ (show 2 ≤ 2 ^ 1 by norm_num)

theorem witness_configured : Configured cfgA ∧ Configured cfgD := ⟨⟨rfl, witness_cfgA⟩, ⟨rfl, witness_cfgD⟩⟩

theorem witness_ValidateDecidesTheConfiguration : ∃ s, CfgOK s ∧ s.cfgv = false := by
  refine ⟨{ cfgA with cfgv := false }, ?_, rfl⟩
  intro k h h'
  exact witness_cfgA k h h'

/-- `FirstFailing` at its least value, 1 (T35), and at a value where checks 1 to 6 hold, 7 (T36t). -/
theorem witness_ValidateDecidesTheConfiguration_fails : FirstFailing 1 State.reset ∧ FirstFailing 7 { cfgA with g := 1 } := by
  refine ⟨⟨by decide, by decide, fun h => absurd h.1 (by decide), fun j h h' => by omega⟩,
    ⟨by decide, by decide, ?_, ?_⟩⟩
  · intro h
    have h1 : (11 : Nat) - 1 ≤ 1 := h.2 ⟨by decide, by decide⟩
    omega
  · intro j h h'
    have : j = 1 ∨ j = 2 ∨ j = 3 ∨ j = 4 ∨ j = 5 ∨ j = 6 := by omega
    rcases this with rfl | rfl | rfl | rfl | rfl | rfl
    · exact witness_cfgA 1 (by omega) (by omega)
    · exact witness_cfgA 2 (by omega) (by omega)
    · exact witness_cfgA 3 (by omega) (by omega)
    · exact witness_cfgA 4 (by omega) (by omega)
    · exact witness_cfgA 5 (by omega) (by omega)
    · exact ⟨by decide, by decide⟩

/-- `FirstFailing` at its greatest value, 8 (T38b: `P = 3`, `G = 2`, radix 2, width 1). -/
theorem witness_ValidateDecidesTheConfiguration_fails_8 :
    FirstFailing 8 (config 3 2 2 1 [0x30, 0x31] false) := by
  refine ⟨by decide, by decide, fun h => absurd (show 3 ≤ 2 ^ 1 from h) (by decide), ?_⟩
  intro j h h'
  have : j = 1 ∨ j = 2 ∨ j = 3 ∨ j = 4 ∨ j = 5 ∨ j = 6 ∨ j = 7 := by omega
  rcases this with rfl | rfl | rfl | rfl | rfl | rfl | rfl
  · exact ⟨by decide, by decide⟩
  · exact ⟨by decide, by decide⟩
  · exact (show 2 ^ 1 ≤ 2 ^ 32 by norm_num)
  · exact (symbols_nodup_iff _).1 ((checkDistinct_iff _).1 (by decide))
  · exact (prime_iff_no_divisor _).1 (show Nat.Prime 3 by norm_num)
  · exact ⟨by decide, by decide⟩
  · refine ⟨⟨by decide, by decide⟩, ?_⟩
    rintro e ⟨h1, h2⟩
    by_contra hn
    have h2' : e < 2 := Nat.lt_of_not_le hn
    change 2 ^ e % 3 = 1 at h2
    interval_cases e
    omega

/-! ### Witnesses: for each statement with hypotheses, inputs that meet them, one per clause -/

theorem witness_DecodeAndEncodeAgree : (Instr.decode).wf = true ∧ decode 0x00000009#32 = .ok .decode := by decide

theorem witness_AddressMapIsOneToOne :
    regAt 0x00#7 = some .id ∧ regAt 0x3F#7 = some (.code 31) ∧ regAt 0x7F#7 = some (.alpha 63) := by decide

theorem witness_StepRunsTheDecodedCommand (ag : List AgentStep) :
    let s := running cfgA 9 ag
    s.busy = true ∧ decode s.cmdw = .ok .decode ∧ s.agenda = ag :=
  ⟨rfl, show decode 9#32 = .ok .decode by decide, rfl⟩

theorem witness_IllegalWordCompletesWithIllegalCommand (ag : List AgentStep) :
    let s := running State.reset 0x0A#32 ag
    s.busy = true ∧ decode s.cmdw = .error (.opcodeReserved 0x0A#8) ∧ s.agenda = ag :=
  ⟨rfl, show decode 0x0A#32 = .error (.opcodeReserved 0x0A#8) by decide, rfl⟩

theorem witness_HostTransactionsAreSteps (x : AgentStep) : { State.reset with agenda := [x] }.agenda = [x] := rfl

theorem witness_CmdWriteIsAccepted :
    let s := { State.reset with agenda := [.write 0x02#7 9#32] }
    s.busy = false ∧ s.agenda = [.write 0x02#7 9#32] ∧
      (running s 0 [.write 0x02#7 9#32]).busy = true := by decide

/-- R36: the rising transition, then the falling one in each of its four agendas. -/
theorem witness_SequencerHasThreeTransitions :
    (sees (step { State.reset with agenda := [.write 0x02#7 9#32] }) State.busy = some true) ∧
    (sees (step (running State.reset 0 [])) State.busy = some false) ∧
    (sees (step (running State.reset 0 [.engine])) State.busy = some false) ∧
    (sees (step (running State.reset 0 [.wait])) State.busy = some false) ∧
    (sees (step (running State.reset 0 [.reset])) State.busy = some false) := by decide

/-- R37: each flag moves as each clause says. -/
theorem witness_FlagsChangeOnlyAsTabled :
    (sees (step (running State.reset 0 [])) State.done = some true) ∧
    (sees (step { State.reset with done := true, agenda := [.write 0x02#7 9#32] }) State.done = some false) ∧
    (sees (step { State.reset with done := true, agenda := [.write 0x03#7 2#32] }) State.done = some false) ∧
    (sees (step { State.reset with done := true, agenda := [.reset] }) State.done = some false) ∧
    (sees (step (running { cfgA with cfgv := false } 1 [])) State.cfgv = some true) ∧
    (sees (step (running { cfgA with g := 1 } 1 [.wait])) State.cfgv = some false) ∧
    (sees (step { cfgA with agenda := [.write 0x08#7 11#32] }) State.cfgv = some false) ∧
    (sees (step { cfgA with agenda := [.write 0x7F#7 0#32] }) State.cfgv = some false) ∧
    (sees (step { cfgA with agenda := [.reset] }) State.cfgv = some false) ∧
    (sees (step (running State.reset 0 [.write 0x10#7 1#32])) State.haz = some true) ∧
    (sees (step { State.reset with haz := true, agenda := [.write 0x03#7 8#32] }) State.haz = some false) ∧
    (sees (step { State.reset with haz := true, agenda := [.reset] }) State.haz = some false) := by decide

theorem witness_RunningCommandSeesFrozenRegisters :
    let s := running State.reset 0 [.write 0x01#7 1#32]
    s.busy = true ∧ ∃ t, step s = .next t ∧ t.busy = true ∧ t.ie = true := ⟨rfl, _, rfl, rfl, rfl⟩

theorem witness_RunningCommandEnds : (running State.reset 0 [.getCode, .read 0x03#7]).busy = true := rfl

theorem witness_ErrorRecordStaysUntilTheNextCommand :
    let s := { State.reset with err := 4, errinfo := 7, agenda := [.write 0x10#7 5#32] }
    (∀ rest, s.agenda ≠ .reset :: rest) ∧ ∃ t, step s = .next t ∧ s.busy = t.busy ∧ t.opa = 5 :=
  ⟨by simp, _, rfl, rfl, rfl⟩

theorem witness_PortReadReturnsTheRegister :
    31 < 32 ∧ 63 < 64 ∧ (0x15 ≤ (0x1F#7).toNat ∧ (0x1F#7).toNat ≤ 0x1F) := by decide

theorem witness_ReadOnlyAndReservedWritesAreIgnored :
    (5 ≤ (0x05#7).toNat ∧ (0x07#7).toNat ≤ 7) ∧ (0x0D ≤ (0x0D#7).toNat ∧ (0x0F#7).toNat ≤ 0x0F) ∧
    (0x15 ≤ (0x15#7).toNat ∧ (0x1F#7).toNat ≤ 0x1F) := by decide

theorem witness_BusyWritesAreDroppedAndSetHaz :
    (acceptCommand State.reset 0).busy = true ∧ 0x20 ≤ (0x20#7).toNat ∧ 0x20 ≤ (0x7F#7).toNat := by decide

theorem witness_IdleWritesArePerformed : State.reset.busy = false ∧ 31 < 32 ∧ 63 < 64 := by decide

theorem witness_ConfigurationWritesClearCfgv :
    cfgA.busy = false ∧ (acceptCommand cfgA 0).busy = true ∧
    ConfigAddr 0x40#7 ∧ ConfigAddr 0x7F#7 ∧ ConfigAddr 0x08#7 ∧ ¬ ConfigAddr 0x3F#7 := by decide

theorem witness_ByteEntriesReadBackTheirLowByte :
    State.reset.busy = false ∧ 0x20 ≤ (0x20#7).toNat ∧ 0x20 ≤ (0x7F#7).toNat ∧ 0x20#7 ≠ 0x7F#7 := by decide

/-- Each of the three agendas at which the engine moves. -/
theorem witness_EngineTurn :
    EngineTurn (running cfgA 0 []) ∧ EngineTurn (running cfgA 0 [.engine]) ∧ EngineTurn (running cfgA 0 [.wait]) :=
  ⟨.inl rfl, .inr (.inl ⟨_, rfl⟩), .inr (.inr ⟨_, rfl⟩)⟩

theorem witness_InterruptIsALevel :
    (running { cfgA with ie := true } 0 []).busy = true ∧ (running cfgA 0 [.reset]).agenda = [.reset] ∧
    { State.reset with done := true }.done = true ∧ State.reset.busy = false ∧
    (0x00000002#32).getLsbD 1 = true := by decide

theorem witness_ResetFromEveryState :
    (running cfgA 5 [.reset, .engine]).agenda = .reset :: [.engine] ∧ (running cfgA 5 [.reset]).busy = true := by
  decide

theorem witness_AfterResetNothingIsConfigured : needsConfig .scramble = true ∧ needsConfig .decode = true := by
  decide

theorem witness_ModularProductIsExact :
    2 ^ 32 - 2 < 2 ^ 32 - 1 ∧ 2 ^ 32 - 1 < 2 ^ 32 ∧ (0 : Nat) < 1 := by norm_num

theorem witness_ModexpComputesThePower :
    State.reset.opm = 0#32 ∧ { State.reset with opm := 1 }.opm ≠ 0#32 := by decide

theorem witness_ModinvComputesTheInverse :
    State.reset.opm = 0#32 ∧
    (let s := { State.reset with opa := 6, opm := 9 }
     s.opm ≠ 0#32 ∧ Nat.gcd (s.opa.toNat % s.opm.toNat) s.opm.toNat ≠ 1) ∧
    (let s := { State.reset with opa := 5, opm := 1 }
     s.opm ≠ 0#32 ∧ Nat.gcd (s.opa.toNat % s.opm.toNat) s.opm.toNat = 1) := by decide

theorem witness_ScrambleComputesThePower :
    State.reset.cfgv = false ∧
    (let s := { cfgA with opa := 10 }; s.cfgv = true ∧ s.p.toNat - 1 ≤ s.opa.toNat) ∧
    (let s := { cfgA with opa := 9 }; s.cfgv = true ∧ s.opa.toNat < s.p.toNat - 1) := by decide

/-- The third clause needs a `G` that is no primitive root, which no run reaches with `CFGV = 1`. -/
theorem witness_UnscrambleFindsTheLeastCounter :
    State.reset.cfgv = false ∧
    (let s := { cfgA with opa := 11 }; s.cfgv = true ∧ s.p.toNat ≤ s.opa.toNat) ∧
    (let s := { cfgA with g := 1, opa := 2 }
     s.cfgv = true ∧ s.opa ≠ 0#32 ∧ s.opa.toNat < s.p.toNat ∧
       ∀ c, c < s.p.toNat - 1 → s.g.toNat ^ (c + 1) % s.p.toNat ≠ s.opa.toNat) ∧
    (let s := { cfgA with opa := 1 }
     s.cfgv = true ∧ s.opa ≠ 0#32 ∧ s.opa.toNat < s.p.toNat ∧ 9 < s.p.toNat - 1 ∧
       s.g.toNat ^ (9 + 1) % s.p.toNat = s.opa.toNat ∧
       ∀ j, j < 9 → s.g.toNat ^ (j + 1) % s.p.toNat ≠ s.opa.toNat) := by decide

/-- Configuration A with any other register changed is still valid. -/
theorem cfgA_with (s : State) (hv : s.cfgv = true) (hp : s.p = cfgA.p) (hg : s.g = cfgA.g)
    (hr : s.radix = cfgA.radix) (hw : s.width = cfgA.width) (ha : s.alpha = cfgA.alpha) : Configured s := by
  refine ⟨hv, fun k h h' => ?_⟩
  have := witness_cfgA k h h'
  unfold CheckHolds at this ⊢
  rw [hp, hg, hr, hw, ha]
  exact this

theorem witness_UnscrambleSucceedsOnEveryScrambledValue :
    let s := { cfgA with opa := 10 }
    Configured s ∧ 1 ≤ s.opa.toNat ∧ s.opa.toNat ≤ s.p.toNat - 1 :=
  ⟨cfgA_with _ rfl rfl rfl rfl rfl rfl, by decide, by decide⟩

theorem witness_TostrRendersTheDigits :
    (let s := { cfgA with opa := 16 }; s.cfgv = true ∧ s.radix.toNat ^ s.width.toNat ≤ s.opa.toNat) ∧
    (let s := { cfgA with opa := 15 }
     s.cfgv = true ∧ CheckHolds 1 s ∧ CheckHolds 2 s ∧ s.opa.toNat < s.radix.toNat ^ s.width.toNat) :=
  ⟨⟨rfl, show 4 ^ 2 ≤ 16 by norm_num⟩,
    rfl, ⟨by decide, by decide⟩, ⟨by decide, by decide⟩, show 15 < 4 ^ 2 by norm_num⟩

/-- "dd" spells the digits 3, 3: the largest string of configuration A. -/
theorem spells_dd : Spells (withCode cfgA 2 [0x64, 0x64]) (fun _ => 3) := by
  intro j hj
  have : j = 0 ∨ j = 1 := by
    change j < 2 at hj
    omega
  rcases this with rfl | rfl <;> exact ⟨by decide, 0x64, rfl, rfl⟩

/-- The second symbol is the first bad one. -/
theorem witness_FromstrAndDecode_bad_symbol :
    let s := withCode cfgA 2 [0x63, 0x7A]
    s.cfgv = true ∧ CheckHolds 2 s ∧ s.codelen = s.width ∧ 1 < s.width.toNat ∧ s.code[1]? = some 0x7A#8 ∧
      (∀ i, i < s.radix.toNat → s.alpha[i]? ≠ some 0x7A#8) ∧
      (∀ k, k < 1 → ∃ i, i < s.radix.toNat ∧ s.alpha[i]? = s.code[k]?) := by
  refine ⟨rfl, ⟨by decide, by decide⟩, rfl, by decide, rfl, ?_, ?_⟩
  · intro i hi
    change i < 4 at hi
    interval_cases i <;> decide
  · intro k hk
    have : k = 0 := by omega
    subst this
    exact ⟨2, by decide, rfl⟩

theorem witness_FromstrParsesTheString :
    State.reset.cfgv = false ∧ (let s := withCode cfgA 3 []; s.cfgv = true ∧ s.codelen ≠ s.width) ∧
    (let s := withCode cfgA 2 [0x64, 0x64]; Configured s ∧ s.codelen = s.width ∧ Spells s (fun _ => 3)) :=
  ⟨rfl, ⟨rfl, by decide⟩, cfgA_with _ rfl rfl rfl rfl rfl rfl, rfl, spells_dd⟩

theorem witness_EncodeRendersTheScrambledValue :
    (let s := { cfgA with opa := 10 }; s.cfgv = true ∧ s.p.toNat - 1 ≤ s.opa.toNat) ∧
    (let s := { cfgA with opa := 9 }; Configured s ∧ s.opa.toNat < s.p.toNat - 1) :=
  ⟨⟨rfl, by decide⟩, cfgA_with _ rfl rfl rfl rfl rfl rfl, by decide⟩

/-- "aa", value 0; "cd", value 11, which is `P`; "cc", value 10, which is `P - 1`. -/
theorem witness_DecodeRecoversTheCounter :
    (Spells (withCode cfgA 2 [0x61, 0x61]) (fun _ => 0) ∧ digitsValue 4 2 (fun _ => 0) = 0) ∧
    (Spells (withCode cfgA 2 [0x63, 0x64]) (fun j => 2 + j) ∧ 11 ≤ digitsValue 4 2 (fun j => 2 + j)) ∧
    (Spells (withCode cfgA 2 [0x63, 0x63]) (fun _ => 2) ∧ digitsValue 4 2 (fun _ => 2) = 10) := by
  refine ⟨⟨?_, by decide⟩, ⟨?_, by decide⟩, ⟨?_, by decide⟩⟩
  all_goals
    intro j hj
    have : j = 0 ∨ j = 1 := by
      change j < 2 at hj
      omega
    rcases this with rfl | rfl <;> exact ⟨by decide, _, rfl, rfl⟩

theorem witness_CfgvTestOfTheSixCommands :
    needsConfig .tostr = true ∧ State.reset.cfgv = false ∧ needsConfig .modexp = false := by decide

theorem witness_CommandsWriteOnlyTheirRegisters :
    (∃ t, exec .encode { cfgA with opa := 9 } = .next t) ∧ writesRes .encode = false ∧
    (∃ t, exec .modexp State.reset = .next t) ∧ writesCode .modexp = false ∧ Instr.modexp ≠ .validate :=
  ⟨⟨_, rfl⟩, rfl, ⟨_, rfl⟩, rfl, by decide⟩

theorem witness_AnErrorWritesOnlyItsRecord :
    (∃ t, Runs .validate State.reset t ∧ t.err ≠ 0) ∧ ∃ t, Runs .modinv State.reset t ∧ t.err ≠ 0 :=
  ⟨⟨_, rfl, by decide⟩, ⟨_, rfl, by decide⟩⟩

theorem witness_CommandsRaiseOnlyTheirErrors : ∃ t, Runs .validate State.reset t ∧ t.err = 6 := ⟨_, rfl, rfl⟩

theorem witness_OutcomeDependsOnlyOnTheOperands :
    let s₁ := { State.reset with opa := 3, opm := 11, opb := 1 }
    let s₂ := { cfgA with opa := 3, opm := 11 }
    ReadsAgree .modinv s₁ s₂ ∧ s₁ ≠ s₂ ∧ (∃ t, Runs .modinv s₁ t) ∧ ∃ t, Runs .modinv s₂ t :=
  ⟨⟨rfl, rfl⟩, by decide, ⟨_, rfl⟩, ⟨_, rfl⟩⟩

theorem witness_ScrambleIsABijection :
    CfgOK cfgA ∧ 9 < cfgA.p.toNat - 1 ∧ 10 ≤ cfgA.p.toNat - 1 := ⟨witness_cfgA, by decide, by decide⟩

theorem witness_ScrambleAndUnscrambleAreInverse :
    (let s := { cfgA with opa := 9 }; Configured s ∧ s.opa.toNat < s.p.toNat - 1) ∧
    (let s := { cfgA with opa := 10 }; Configured s ∧ 1 ≤ s.opa.toNat ∧ s.opa.toNat ≤ s.p.toNat - 1) :=
  ⟨⟨cfgA_with _ rfl rfl rfl rfl rfl rfl, by decide⟩,
    cfgA_with _ rfl rfl rfl rfl rfl rfl, by decide, by decide⟩

theorem witness_FromstrInvertsTostr :
    let s := { cfgA with opa := 15 }
    Configured s ∧ s.opa.toNat < s.radix.toNat ^ s.width.toNat :=
  ⟨cfgA_with _ rfl rfl rfl rfl rfl rfl, show 15 < 4 ^ 2 by norm_num⟩

theorem witness_TostrInvertsFromstr :
    let s := withCode cfgA 2 [0x64, 0x64]
    Configured s ∧ s.codelen = s.width ∧
      ∀ j, j < s.width.toNat → ∃ i, i < s.radix.toNat ∧ s.alpha[i]? = s.code[j]? := by
  refine ⟨cfgA_with _ rfl rfl rfl rfl rfl rfl, rfl, fun j hj => ⟨3, by decide, ?_⟩⟩
  obtain ⟨-, c, h1, h2⟩ := spells_dd j hj
  rw [h1]
  exact h2

theorem witness_EncodeAndDecodeAreInverse :
    (let s := { cfgA with opa := 9 }; Configured s ∧ s.opa.toNat < s.p.toNat - 1) ∧
    (let s := withCode cfgA 2 [0x63, 0x63]
     Configured s ∧ s.codelen = s.width ∧ Spells s (fun _ => 2) ∧
       1 ≤ digitsValue s.radix.toNat s.width.toNat (fun _ => 2) ∧
       digitsValue s.radix.toNat s.width.toNat (fun _ => 2) < s.p.toNat) :=
  ⟨⟨cfgA_with _ rfl rfl rfl rfl rfl rfl, by decide⟩,
    cfgA_with _ rfl rfl rfl rfl rfl rfl, rfl, witness_DecodeRecoversTheCounter.2.2.1, by decide, by decide⟩

theorem witness_DistinctCountersGetDistinctStrings :
    Configured cfgA ∧ (0#32).toNat < cfgA.p.toNat - 1 ∧ (9#32).toNat < cfgA.p.toNat - 1 ∧ 0#32 ≠ 9#32 :=
  ⟨witness_configured.1, by decide, by decide, by decide⟩

/-- A configured block with VALIDATE running meets both invariants and has a next state. -/
theorem witness_EveryStepKeepsTheInvariants :
    let s := running cfgA 1 []
    Inv s ∧ ErrorDetail s ∧ ∃ t, step s = .next t := by
  refine ⟨⟨fun _ => (cfgA_with _ rfl rfl rfl rfl rfl rfl).2, fun _ => ⟨rfl, rfl, rfl⟩, rfl, by decide, fun _ => rfl⟩,
    ⟨fun _ => rfl, ?_, ?_, ?_, ?_, ?_, ?_⟩, ⟨_, rfl⟩⟩ <;> exact fun h => absurd h (by decide)

theorem witness_RunStatementCompletes :
    let s := { State.reset with agenda := expandStmt (.run .validate) ++ [AgentStep.engine] }
    s.busy = false ∧ s.agenda = expandStmt (.run .validate) ++ [AgentStep.engine] := by decide

theorem witness_SetCodeLoadsTheString :
    let s := { State.reset with agenda := expandStmt (.setCode (List.replicate 32 0x161)) ++ [] }
    s.busy = false ∧ (HostStmt.setCode (List.replicate 32 0x161)).wf = true ∧
      s.agenda = expandStmt (.setCode (List.replicate 32 0x161)) ++ [] := ⟨rfl, by decide, rfl⟩

theorem witness_SetAlphaLoadsTheTable :
    let s := { State.reset with agenda := expandStmt (.setAlpha (List.replicate 64 0x161)) ++ [] }
    s.busy = false ∧ List.replicate 64 (0x161 : Word) ≠ [] ∧
      (HostStmt.setAlpha (List.replicate 64 0x161)).wf = true ∧
      s.agenda = expandStmt (.setAlpha (List.replicate 64 0x161)) ++ [] := ⟨rfl, by decide, by decide, rfl⟩

theorem witness_GetCodeReturnsTheString :
    let s := { withCode cfgA 32 [0x61] with agenda := [.getCode] }
    s.codelen.toNat ≤ 32 ∧ s.agenda = [.getCode] := by decide

end Sys2Proof.Tests
end

/-! ## What a command's outcome depends on (R12, R114)

Two runs of one command are compared: each register a command can write must get the same value in both
runs or be left alone in both. The shared operations keep this relation when they are given equal answers, and
a command's answer is a function of the registers that `ReadsAgree` names. -/

namespace Sys2Proof.Machine

open Sys2Proof.Safety

/-- A location held `x₁` and `x₂` before two runs and holds `y₁` and `y₂` after them: both runs gave it one
value, or both left it alone. -/
def SameOrKept {α : Type} (x₁ x₂ y₁ y₂ : α) : Prop := y₁ = y₂ ∨ (y₁ = x₁ ∧ y₂ = x₂)

theorem SameOrKept.same {α : Type} {x₁ x₂ y₁ y₂ : α} (h : y₁ = y₂) : SameOrKept x₁ x₂ y₁ y₂ := .inl h

theorem SameOrKept.kept {α : Type} {x₁ x₂ : α} : SameOrKept x₁ x₂ x₁ x₂ := .inr ⟨rfl, rfl⟩

/-- The runs from `s₁` to `t₁` and from `s₂` to `t₂` have the same outcome (R12): one error record, and
`SameOrKept` of each register that a command can write (R114). -/
def SameOutcome (s₁ s₂ t₁ t₂ : State) : Prop :=
  t₁.err = t₂.err ∧ t₁.errinfo = t₂.errinfo ∧
  SameOrKept s₁.res s₂.res t₁.res t₂.res ∧
  SameOrKept s₁.codelen s₂.codelen t₁.codelen t₂.codelen ∧
  SameOrKept s₁.cfgv s₂.cfgv t₁.cfgv t₂.cfgv ∧
  ∀ j : Nat, SameOrKept s₁.code[j]? s₂.code[j]? t₁.code[j]? t₂.code[j]?

/-- `SameOutcome` of two answered steps. -/
def SameStep (s₁ s₂ : State) (r₁ r₂ : StepResult) : Prop :=
  ∀ t₁ t₂, r₁ = .next t₁ → r₂ = .next t₂ → SameOutcome s₁ s₂ t₁ t₂

theorem sameStep_next {s₁ s₂ t₁ t₂ : State} (h : SameOutcome s₁ s₂ t₁ t₂) :
    SameStep s₁ s₂ (.next t₁) (.next t₂) := by
  rintro _ _ ⟨⟩ ⟨⟩
  exact h

/-- Storing one string in two buffers: an entry gets the string's symbol in both or is left alone in both. -/
theorem storeSymbols_sameOrKept (out : List Byte) (c₁ c₂ : Vector Byte 32) (j k : Nat) :
    SameOrKept c₁[k]? c₂[k]? (storeSymbols out j c₁)[k]? (storeSymbols out j c₂)[k]? := by
  by_cases hk : k < 32
  · rw [storeSymbols_getElem? out j c₁ k hk, storeSymbols_getElem? out j c₂ k hk]
    split
    · exact .same rfl
    · exact .kept
  · exact .same (by rw [Vector.getElem?_eq_none (by omega), Vector.getElem?_eq_none (by omega)])

theorem sameOutcome_raise (s₁ s₂ : State) (k : ErrorKind) (info : Nat) :
    SameOutcome s₁ s₂ (raise s₁ k info) (raise s₂ k info) :=
  ⟨rfl, rfl, .kept, .kept, .kept, fun _ => .kept⟩

/-- VALIDATE's error, the one that writes a register beside the error record (R143). -/
theorem sameOutcome_raise_putCfgv (s₁ s₂ : State) (b : Bool) (k : ErrorKind) (info : Nat) :
    SameOutcome s₁ s₂ (raise (putCfgv b s₁) k info) (raise (putCfgv b s₂) k info) :=
  ⟨rfl, rfl, .kept, .kept, .same rfl, fun _ => .kept⟩

section

/-! A success leaves `ERR` and `ERRINFO` as they stand (R246), so from here on the two states start with one
error record, as they do after an accepted `CMD` write (R111). -/

variable {s₁ s₂ : State} (herr : s₁.err = s₂.err) (hinfo : s₁.errinfo = s₂.errinfo)

include herr hinfo

theorem sameOutcome_succeed : SameOutcome s₁ s₂ (succeed s₁) (succeed s₂) :=
  ⟨herr, hinfo, .kept, .kept, .kept, fun _ => .kept⟩

theorem sameOutcome_putCfgv (b : Bool) :
    SameOutcome s₁ s₂ (succeed (putCfgv b s₁)) (succeed (putCfgv b s₂)) :=
  ⟨herr, hinfo, .kept, .kept, .same rfl, fun _ => .kept⟩

theorem sameOutcome_putRes (n : Nat) :
    SameOutcome s₁ s₂ (succeed (putRes n s₁)) (succeed (putRes n s₂)) :=
  ⟨herr, hinfo, .same rfl, .kept, .kept, fun _ => .kept⟩

theorem sameOutcome_putString (hwidth : s₁.width = s₂.width) (out : List Byte) :
    SameOutcome s₁ s₂ (succeed (putString out s₁)) (succeed (putString out s₂)) :=
  ⟨herr, hinfo, .kept, .same hwidth, .kept, storeSymbols_sameOrKept out s₁.code s₂.code 0⟩

omit herr hinfo in
/-- Equal answers conclude alike when their updates do. -/
theorem sameStep_conclude {α : Type} {a₁ a₂ : Answer α} {put : α → State → State} (ha : a₁ = a₂)
    (hput : ∀ x, SameOutcome s₁ s₂ (succeed (put x s₁)) (succeed (put x s₂))) :
    SameStep s₁ s₂ (conclude s₁ a₁ put) (conclude s₂ a₂ put) := by
  subst ha
  cases a₁ with
  | ok x => exact sameStep_next (hput x)
  | err k info => exact sameStep_next (sameOutcome_raise s₁ s₂ k info)

omit herr hinfo in
theorem sameStep_whenConfigured {b₁ b₂ : StepResult} (hcfgv : s₁.cfgv = s₂.cfgv)
    (hbody : SameStep s₁ s₂ b₁ b₂) : SameStep s₁ s₂ (whenConfigured s₁ b₁) (whenConfigured s₂ b₂) := by
  cases hc : s₂.cfgv with
  | true => rwa [whenConfigured_of_true s₁ b₁ (hcfgv.trans hc), whenConfigured_of_true s₂ b₂ hc]
  | false =>
    rw [whenConfigured_of_false s₁ b₁ (hcfgv.trans hc), whenConfigured_of_false s₂ b₂ hc]
    exact sameStep_next (sameOutcome_raise s₁ s₂ .notConfigured 0)

theorem sameStep_execValidate
    (hcheck : firstFailingCheck s₁.p.toNat s₁.g.toNat s₁.radix.toNat s₁.width.toNat (symbols s₁) =
      firstFailingCheck s₂.p.toNat s₂.g.toNat s₂.radix.toNat s₂.width.toNat (symbols s₂)) :
    SameStep s₁ s₂ (execValidate s₁) (execValidate s₂) := by
  unfold execValidate
  rw [hcheck]
  split
  · exact sameStep_next (sameOutcome_putCfgv herr hinfo true)
  · exact sameStep_next (sameOutcome_raise_putCfgv s₁ s₂ false .configInvalid _)

/-- R114: a command's answer is a function of the registers that it reads, so its steps from two states that
agree on them are alike. -/
theorem sameStep_exec (i : Instr) (h : ReadsAgree i s₁ s₂) : SameStep s₁ s₂ (exec i s₁) (exec i s₂) := by
  have hres := sameOutcome_putRes herr hinfo
  cases i with
  | nop => exact sameStep_next (sameOutcome_succeed herr hinfo)
  | validate =>
    obtain ⟨hp, hg, hradix, hwidth, hsyms⟩ := h
    exact sameStep_execValidate herr hinfo (by rw [hp, hg, hradix, hwidth, hsyms])
  | modexp =>
    obtain ⟨hopa, hopb, hopm⟩ := h
    exact sameStep_conclude (by rw [hopa, hopb, hopm]) hres
  | modinv =>
    obtain ⟨hopa, hopm⟩ := h
    exact sameStep_conclude (by rw [hopa, hopm]) hres
  | scramble =>
    obtain ⟨hcfgv, hp, hg, hopa⟩ := h
    exact sameStep_whenConfigured hcfgv (sameStep_conclude (by rw [hp, hg, hopa]) hres)
  | unscramble =>
    obtain ⟨hcfgv, hp, hg, hopa⟩ := h
    exact sameStep_whenConfigured hcfgv (sameStep_conclude (by rw [hp, hg, hopa]) hres)
  | tostr =>
    obtain ⟨hcfgv, hradix, hwidth, hsyms, hopa⟩ := h
    exact sameStep_whenConfigured hcfgv
      (sameStep_conclude (by rw [hradix, hwidth, hsyms, hopa]) (sameOutcome_putString herr hinfo hwidth))
  | fromstr =>
    obtain ⟨hcfgv, hradix, hwidth, hsyms, hlen, hcode⟩ := h
    exact sameStep_whenConfigured hcfgv
      (sameStep_conclude (by rw [hradix, hwidth, hsyms, hlen, hcode]) hres)
  | encode =>
    obtain ⟨hcfgv, hp, hg, hradix, hwidth, hsyms, hopa⟩ := h
    exact sameStep_whenConfigured hcfgv
      (sameStep_conclude (by rw [hp, hg, hradix, hwidth, hsyms, hopa])
        (sameOutcome_putString herr hinfo hwidth))
  | decode =>
    obtain ⟨hcfgv, hp, hg, hradix, hwidth, hsyms, hlen, hcode⟩ := h
    exact sameStep_whenConfigured hcfgv
      (sameStep_conclude (by rw [hp, hg, hradix, hwidth, hsyms, hlen, hcode]) hres)

end

/-- Accepting a command word touches no register that a command reads (R111, R114). -/
theorem readsAgree_acceptCommand {i : Instr} {s₁ s₂ : State} (w : Word) (h : ReadsAgree i s₁ s₂) :
    ReadsAgree i (acceptCommand s₁ w) (acceptCommand s₂ w) := by
  cases i <;> exact h

/-- Settles O43: acceptance gives both states one error record and touches no register that is read or
left alone, and `exec` answers alike from there. -/
theorem outcomeDependsOnlyOnTheOperands : Obligations.OutcomeDependsOnlyOnTheOperands := by
  intro i s₁ s₂ t₁ t₂ hreads hrun₁ hrun₂
  have hreads' := readsAgree_acceptCommand (encode i) hreads
  have herr : (acceptCommand s₁ (encode i)).err = (acceptCommand s₂ (encode i)).err := rfl
  have hinfo : (acceptCommand s₁ (encode i)).errinfo = (acceptCommand s₂ (encode i)).errinfo := rfl
  exact sameStep_exec herr hinfo i hreads' t₁ t₂ hrun₁ hrun₂

end Sys2Proof.Machine

/-! ## The address map (R40, R67) -/

namespace Sys2Proof.Machine

theorem regAt_code (j : Fin 32) : regAt (BitVec.ofNat 7 (0x20 + j.val)) = some (.code j) := by
  have haddr : (BitVec.ofNat 7 (0x20 + j.val)).toNat = 0x20 + j.val := by
    rw [BitVec.toNat_ofNat]
    omega
  have hlow : ¬ 0x40 ≤ 0x20 + j.val := by omega
  have hmid : 0x20 ≤ 0x20 + j.val ∧ 0x20 + j.val < 0x40 := by omega
  simp [regAt, haddr, hlow, hmid]

theorem regAt_alpha (i : Fin 64) : regAt (BitVec.ofNat 7 (0x40 + i.val)) = some (.alpha i) := by
  have haddr : (BitVec.ofNat 7 (0x40 + i.val)).toNat = 0x40 + i.val := by
    rw [BitVec.toNat_ofNat]
    omega
  simp [regAt, haddr]

/-- Each register stands at its own address (R40). -/
@[simp] theorem regAt_regAddr (r : Reg) : regAt (regAddr r) = some r := by
  cases r with
  | code j => exact regAt_code j
  | alpha i => exact regAt_alpha i
  | _ => rfl

theorem regAddr_toNat_of_lowRegAt {n : Nat} {r : Reg} (h : lowRegAt n = some r) :
    (regAddr r).toNat = n := by
  unfold lowRegAt at h
  split at h <;> cases h <;> rfl

theorem lowRegAt_eq_none_iff {n : Nat} (hn : n < 0x20) :
    lowRegAt n = none ↔ (5 ≤ n ∧ n ≤ 7) ∨ (0x0D ≤ n ∧ n ≤ 0x0F) ∨ (0x15 ≤ n ∧ n ≤ 0x1F) := by
  decide +revert

theorem regAt_of_lt {a : PortAddr} (h : a.toNat < 0x20) : regAt a = lowRegAt a.toNat := by
  rw [regAt, if_neg (by omega), dif_neg (by omega)]

/-- A register that is an entry of `CODE[]` or `ALPHA[]`. -/
def IsByteEntry (r : Reg) : Prop := (∃ j, r = .code j) ∨ ∃ i, r = .alpha i

/-- The upper three quarters of the map are the entries of the two byte arrays (R60, R61). -/
theorem exists_byteEntry_of_le {a : PortAddr} (h : 0x20 ≤ a.toNat) : ∃ r, a = regAddr r ∧ IsByteEntry r := by
  rcases Nat.lt_or_ge a.toNat 0x40 with hlt | hge
  · refine ⟨.code ⟨a.toNat - 0x20, by omega⟩, BitVec.eq_of_toNat_eq ?_, .inl ⟨_, rfl⟩⟩
    simp only [regAddr, BitVec.toNat_ofNat]
    omega
  · refine ⟨.alpha ⟨a.toNat - 0x40, by omega⟩, BitVec.eq_of_toNat_eq ?_, .inr ⟨_, rfl⟩⟩
    simp only [regAddr, BitVec.toNat_ofNat]
    omega

/-- A register stands at no address but its own (R40). -/
theorem regAddr_of_regAt {a : PortAddr} {r : Reg} (h : regAt a = some r) : regAddr r = a := by
  rcases Nat.lt_or_ge a.toNat 0x20 with hlt | hge
  · rw [regAt_of_lt hlt] at h
    exact BitVec.eq_of_toNat_eq (regAddr_toNat_of_lowRegAt h)
  · obtain ⟨r', rfl, -⟩ := exists_byteEntry_of_le hge
    rw [regAt_regAddr] at h
    cases h
    rfl

/-- The addresses without a register are the reserved ones (R67). -/
theorem regAt_eq_none_iff (a : PortAddr) :
    regAt a = none ↔
      (5 ≤ a.toNat ∧ a.toNat ≤ 7) ∨ (0x0D ≤ a.toNat ∧ a.toNat ≤ 0x0F) ∨
        (0x15 ≤ a.toNat ∧ a.toNat ≤ 0x1F) := by
  rcases Nat.lt_or_ge a.toNat 0x20 with hlt | hge
  · rw [regAt_of_lt hlt]
    exact lowRegAt_eq_none_iff hlt
  · obtain ⟨r, rfl, -⟩ := exists_byteEntry_of_le hge
    exact iff_of_false (by simp) (by omega)

/-- Settles O5: `regAddr` and `regAt` are inverse to each other, and `regAt` is undefined exactly on the
reserved ranges. -/
theorem addressMapIsOneToOne : Obligations.AddressMapIsOneToOne :=
  ⟨regAt_regAddr, fun _ _ => regAddr_of_regAt, regAt_eq_none_iff⟩

end Sys2Proof.Machine

/-! ## Port reads and writes, by register (R82, R83) -/

namespace Sys2Proof.Machine

open Sys2Proof.Safety

@[simp] theorem portRead_regAddr (s : State) (r : Reg) : portRead s (regAddr r) = readReg s r := by
  simp [portRead]

@[simp] theorem portWrite_regAddr (s : State) (r : Reg) (v : Word) :
    portWrite s (regAddr r) v = writeReg s r v := by
  simp [portWrite]

theorem portRead_of_reserved {s : State} {a : PortAddr} (h : regAt a = none) : portRead s a = 0 := by
  simp [portRead, h]

theorem portWrite_of_reserved {s : State} {a : PortAddr} {v : Word} (h : regAt a = none) :
    portWrite s a v = s := by
  simp [portWrite, h]

/-- Every address is a register's or reserved (R40, R67). -/
theorem reserved_or_regAddr (a : PortAddr) : regAt a = none ∨ ∃ r, a = regAddr r := by
  cases h : regAt a with
  | none => exact .inl rfl
  | some r => exact .inr ⟨r, (regAddr_of_regAt h).symm⟩

/-- The configuration registers `P`, `G`, `RADIX`, `WIDTH` and `ALPHA[0..63]` (R52). -/
def isConfigReg : Reg → Bool
  | .p | .g | .radix | .width | .alpha _ => true
  | _ => false

theorem regAddr_inj {r r' : Reg} : regAddr r = regAddr r' ↔ r = r' := by
  refine ⟨fun h => ?_, congrArg regAddr⟩
  have hreg : some r = some r' := by rw [← regAt_regAddr r, h, regAt_regAddr]
  exact Option.some.inj hreg

theorem le_regAddr_iff_alpha (r : Reg) : 0x40 ≤ (regAddr r).toNat ↔ ∃ i, r = .alpha i := by
  cases r with
  | code j =>
    simp only [regAddr, BitVec.toNat_ofNat]
    exact iff_of_false (by omega) (by simp)
  | alpha i =>
    simp only [regAddr, BitVec.toNat_ofNat]
    exact iff_of_true (by omega) ⟨i, rfl⟩
  | _ => simp [regAddr]

theorem configAddr_regAddr (r : Reg) : ConfigAddr (regAddr r) ↔ isConfigReg r = true := by
  have hregs : ConfigAddr (regAddr r) ↔
      r = .p ∨ r = .g ∨ r = .radix ∨ r = .width ∨ ∃ i, r = .alpha i := by
    rw [← le_regAddr_iff_alpha, ← regAddr_inj, ← regAddr_inj, ← regAddr_inj, ← regAddr_inj]
    rfl
  rw [hregs]
  cases r <;> simp [isConfigReg]

theorem exists_configReg_of_configAddr {a : PortAddr} (h : ConfigAddr a) :
    ∃ r, a = regAddr r ∧ isConfigReg r = true := by
  rcases reserved_or_regAddr a with hres | ⟨r, rfl⟩
  · rw [regAt_eq_none_iff] at hres
    rcases h with rfl | rfl | rfl | rfl | h
    case' inr.inr.inr.inr => omega
    all_goals simp at hres
  · exact ⟨r, rfl, (configAddr_regAddr r).1 h⟩

/-! ### What a write to a register does to each flag -/

section

variable {s : State} {r : Reg} {v : Word}

theorem ctrl_or_status_of_always (h : writeClass r = .always) : r = .ctrl ∨ r = .status := by
  cases r <;> simp [writeClass] at h ⊢

theorem ne_cmd_of_ignored (h : writeClass r = .ignored) : r ≠ .cmd := by
  rintro rfl
  cases h

theorem ne_status_of_ignored (h : writeClass r = .ignored) : r ≠ .status := by
  rintro rfl
  cases h

theorem ne_status_of_gated (h : writeClass r = .gated) : r ≠ .status := by
  rintro rfl
  cases h

/-- Configuration registers are in class 3 (R52, R83). -/
theorem gated_of_isConfigReg (h : isConfigReg r = true) : writeClass r = .gated := by
  cases r <;> simp [writeClass, isConfigReg] at h ⊢

theorem isConfigReg_of_ignored (h : writeClass r = .ignored) : isConfigReg r = false := by
  by_contra hr
  simp [gated_of_isConfigReg (Bool.eq_true_of_not_eq_false hr)] at h

theorem performWrite_busy : (performWrite s r v).busy = (s.busy || decide (r = .cmd)) := by
  cases r <;> simp [performWrite]

theorem performWrite_cfgv : (performWrite s r v).cfgv = (s.cfgv && !isConfigReg r) := by
  cases r <;> simp [performWrite, isConfigReg]

theorem performWrite_done (hc : writeClass r = .gated) :
    (performWrite s r v).done = (s.done && !decide (r = .cmd)) := by
  cases r <;> simp [performWrite, writeClass] at hc ⊢

theorem performWrite_haz (hc : writeClass r = .gated) : (performWrite s r v).haz = s.haz := by
  cases r <;> simp [performWrite, writeClass] at hc ⊢

variable (s r v)

/-- `BUSY` rises at a write to `CMD`, and no write lowers it (R36). -/
theorem writeReg_busy : (writeReg s r v).busy = (s.busy || decide (r = .cmd)) := by
  rcases writeReg_cases s r v with ⟨hc, h⟩ | ⟨-, h⟩ | ⟨-, hb, h⟩ | ⟨-, -, h⟩
  · simp [h, ne_cmd_of_ignored hc]
  · rw [h, performWrite_busy]
  · simp [h, hb]
  · rw [h, performWrite_busy]

/-- `CFGV` falls at an accepted write to a configuration register, and no write raises it (R52). -/
theorem writeReg_cfgv : (writeReg s r v).cfgv = (s.cfgv && (s.busy || !isConfigReg r)) := by
  rcases writeReg_cases s r v with ⟨hc, h⟩ | ⟨hc, h⟩ | ⟨-, hb, h⟩ | ⟨-, hb, h⟩
  · simp [h, isConfigReg_of_ignored hc]
  · rcases ctrl_or_status_of_always hc with rfl | rfl <;> simp [h, performWrite, isConfigReg]
  · simp [h, hb]
  · simp [h, hb, performWrite_cfgv]

/-- `DONE` falls at an accepted `CMD` write and at a write of 1 to `STATUS[1]`, and no write raises it
(R37, R44). -/
theorem writeReg_done : (writeReg s r v).done =
    (s.done && !(r = .status && v.getLsbD 1) && !(r = .cmd && !s.busy)) := by
  rcases writeReg_cases s r v with ⟨hc, h⟩ | ⟨hc, h⟩ | ⟨hc, hb, h⟩ | ⟨hc, hb, h⟩
  · simp [h, ne_status_of_ignored hc, ne_cmd_of_ignored hc]
  · rcases ctrl_or_status_of_always hc with rfl | rfl <;> simp [h, performWrite]
  · simp [h, hb, ne_status_of_gated hc]
  · simp [h, hb, performWrite_done hc, ne_status_of_gated hc]

/-- `HAZ` rises at a dropped write, one of class 3 while `BUSY = 1`, and falls at a write of 1 to `STATUS[3]`
(R37, R44, R83). -/
theorem writeReg_haz : (writeReg s r v).haz =
    (s.haz && !(r = .status && v.getLsbD 3) || s.busy && writeClass r = .gated) := by
  rcases writeReg_cases s r v with ⟨hc, h⟩ | ⟨hc, h⟩ | ⟨hc, hb, h⟩ | ⟨hc, hb, h⟩
  · simp [h, hc, ne_status_of_ignored hc]
  · rcases ctrl_or_status_of_always hc with rfl | rfl <;> simp [h, hc, performWrite]
  · simp [h, hb, hc]
  · simp [h, hb, performWrite_haz hc, ne_status_of_gated hc]

/-- While `BUSY = 1` a write reaches `IE`, `DONE` and `HAZ` at most (R66, R83). -/
theorem writeReg_of_busy (hb : s.busy = true) :
    writeReg s r v = { s with ie := (writeReg s r v).ie, haz := (writeReg s r v).haz,
                              done := (writeReg s r v).done } := by
  rcases writeReg_cases s r v with ⟨-, h⟩ | ⟨hc, h⟩ | ⟨-, -, h⟩ | ⟨-, hidle, -⟩
  · rw [h]
  · rw [h]
    rcases ctrl_or_status_of_always hc with rfl | rfl <;> rfl
  · rw [h]
    rfl
  · simp [hb] at hidle

end

/-- Settles O17: `CTRL` and `STATUS` are the two registers of class 1, so the write is performed without a
look at `BUSY`. -/
theorem controlAndStatusWritesArePerformed : Obligations.ControlAndStatusWritesArePerformed := by
  intro s v
  have hctrl : portWrite s 0x01#7 v = writeCtrl s v := portWrite_regAddr s .ctrl v
  have hstatus : portWrite s 0x03#7 v = writeStatus s v := portWrite_regAddr s .status v
  rw [hctrl, hstatus]
  refine ⟨rfl, ?_⟩
  have hclear : ∀ b c : Bool, (b && !c) = if c then false else b := by decide
  simp only [writeStatus, hclear]

/-- A dropped write shows in `STATUS` alone (R288). -/
theorem readReg_dropWrite {s : State} {r : Reg} (h : r ≠ .status) :
    readReg (dropWrite s) r = readReg s r := by
  cases r with
  | status => exact absurd rfl h
  | _ => rfl

/-- Settles O21: `writeReg_cfgv` at the register of the address, and a write to a configuration register is
dropped while `BUSY = 1`. -/
theorem configurationWritesClearCfgv : Obligations.ConfigurationWritesClearCfgv := by
  intro s a v
  refine ⟨fun hb ha => ?_, fun hb ha => ?_, fun ha => ?_⟩
  · obtain ⟨r, rfl, hr⟩ := exists_configReg_of_configAddr ha
    simp [writeReg_cfgv, hb, hr]
  · obtain ⟨r, rfl, hr⟩ := exists_configReg_of_configAddr ha
    have hc := gated_of_isConfigReg hr
    have hdrop : writeReg s r v = dropWrite s := by simp [writeReg, hc, hb]
    rw [portWrite_regAddr, hdrop, portRead_regAddr, portRead_regAddr]
    exact ⟨rfl, readReg_dropWrite (ne_status_of_gated hc)⟩
  · rcases reserved_or_regAddr a with hres | ⟨r, rfl⟩
    · rw [portWrite_of_reserved hres]
    · rw [configAddr_regAddr, Bool.not_eq_true] at ha
      simp [writeReg_cfgv, ha]

/-! ### The two byte arrays (R60, R61) -/

/-- With `BUSY = 0` a write to an entry is performed (R83). -/
theorem writeReg_byteEntry {s : State} {r : Reg} (hr : IsByteEntry r) (hb : s.busy = false) (v : Word) :
    writeReg s r v = performWrite s r v := by
  rcases hr with ⟨j, rfl⟩ | ⟨i, rfl⟩ <;> simp [writeReg, writeClass, hb]

/-- An entry keeps the low byte written and reads back zero extended (R60, R61, R82). -/
theorem readReg_performWrite_same {r : Reg} (hr : IsByteEntry r) (s : State) (v : Word) :
    (readReg (performWrite s r v) r).toNat = v.toNat % 256 := by
  rcases hr with ⟨j, rfl⟩ | ⟨i, rfl⟩ <;> simp [readReg, performWrite, Vector.get_eq_getElem] <;> omega

/-- A write to an entry leaves every other entry of both arrays as it was (R60, R61). -/
theorem readReg_performWrite_ne {r r' : Reg} (hr : IsByteEntry r) (hr' : IsByteEntry r') (hne : r ≠ r')
    (s : State) (v : Word) : readReg (performWrite s r v) r' = readReg s r' := by
  rcases hr with ⟨j, rfl⟩ | ⟨i, rfl⟩ <;> rcases hr' with ⟨j', rfl⟩ | ⟨i', rfl⟩
  · have hj : j.val ≠ j'.val := fun h => hne (by rw [Fin.ext h])
    simp [readReg, performWrite, Vector.get_eq_getElem, Vector.getElem_set_ne _ _ hj]
  · rfl
  · rfl
  · have hi : i.val ≠ i'.val := fun h => hne (by rw [Fin.ext h])
    simp [readReg, performWrite, Vector.get_eq_getElem, Vector.getElem_set_ne _ _ hi]

/-- Settles O22: both addresses are entries of the byte arrays, and the write is performed. -/
theorem byteEntriesReadBackTheirLowByte : Obligations.ByteEntriesReadBackTheirLowByte := by
  intro s a b v hb ha hb'
  obtain ⟨r, rfl, hr⟩ := exists_byteEntry_of_le ha
  obtain ⟨r', rfl, hr'⟩ := exists_byteEntry_of_le hb'
  simp only [portWrite_regAddr, portRead_regAddr, writeReg_byteEntry hr hb]
  exact ⟨readReg_performWrite_same hr s v,
    fun hne => readReg_performWrite_ne hr hr' (fun h => hne (congrArg regAddr h)) s v⟩

end Sys2Proof.Machine

/-! ## The reset state (R70) -/

namespace Sys2Proof.Machine

open Sys2Proof.Safety

theorem readReg_reset {r : Reg} (h : r ≠ .id) : readReg State.reset r = 0 := by
  cases r with
  | id => exact absurd rfl h
  | code j => simp [readReg, Vector.get_eq_getElem]
  | alpha i => simp [readReg, Vector.get_eq_getElem]
  | _ => rfl

theorem portRead_reset {a : PortAddr} (h : a ≠ regAddr .id) : portRead State.reset a = 0 := by
  rcases reserved_or_regAddr a with hres | ⟨r, rfl⟩
  · exact portRead_of_reserved hres
  · rw [portRead_regAddr]
    exact readReg_reset fun hr => h (congrArg regAddr hr)

/-- Settles O24: the fields are 0 as the reset state says, and every register but `ID` then reads 0. -/
theorem resetValues : Obligations.ResetValues := by
  unfold Obligations.ResetValues
  refine ⟨rfl, rfl, rfl, rfl, rfl, rfl, rfl, rfl, rfl, rfl, rfl, rfl, rfl, rfl, rfl, rfl, rfl, rfl,
    ?_, ?_, rfl, rfl, fun a ha => portRead_reset ha⟩
  · intro j hj
    simp
  · intro i hi
    simp

/-- Settles O50: in the reset state nothing runs, nothing is configured and there is no error. -/
theorem resetMeetsTheInvariants : Obligations.ResetMeetsTheInvariants := by
  have hinv : Inv State.reset :=
    { configured := by simp, running := by simp, opcode := by simp, kind := by simp, detail := by simp }
  have hdetail : ErrorDetail State.reset :=
    { running := by simp, invalidCharacter := by simp, configInvalid := by simp, notConfigured := by simp,
      illegalCommand := by simp, badOperand := by simp, notInvertible := by simp }
  exact ⟨hinv, hdetail⟩

end Sys2Proof.Machine

/-! ## VALIDATE decides the configuration predicate (R142, R143) -/

namespace Sys2Proof.Machine

open Sys2Proof.Safety

/-- The configuration predicate, check by check (R142). -/
theorem cfgOK_iff (s : State) : CfgOK s ↔ CheckHolds 1 s ∧ CheckHolds 2 s ∧ CheckHolds 3 s ∧
    CheckHolds 4 s ∧ CheckHolds 5 s ∧ CheckHolds 6 s ∧ CheckHolds 7 s ∧ CheckHolds 8 s := by
  constructor
  · intro h
    exact ⟨h 1 (by omega) (by omega), h 2 (by omega) (by omega), h 3 (by omega) (by omega),
      h 4 (by omega) (by omega), h 5 (by omega) (by omega), h 6 (by omega) (by omega),
      h 7 (by omega) (by omega), h 8 (by omega) (by omega)⟩
  · rintro ⟨h1, h2, h3, h4, h5, h6, h7, h8⟩ k hk hk'
    interval_cases k <;> assumption

theorem checkDistinct_iff_checkHolds (s : State) :
    checkDistinct (symbols s) = true ↔ CheckHolds 4 s := by
  rw [checkDistinct_iff, symbols_nodup_iff]

theorem checkPrime_iff_checkHolds (s : State) : checkPrime s.p.toNat = true ↔ CheckHolds 5 s := by
  rw [checkPrime_iff _ s.p.isLt, prime_iff_no_divisor]
  rfl

/-- Check 7 is looked at only when checks 5 and 6 hold (R144). -/
theorem checkPrimitiveRoot_iff_checkHolds {s : State} (h5 : CheckHolds 5 s) (h6 : CheckHolds 6 s) :
    checkPrimitiveRoot s.p.toNat s.g.toNat = true ↔ CheckHolds 7 s :=
  checkPrimitiveRoot_iff _ _ ((prime_iff_no_divisor _).2 h5) s.p.isLt h6.1 h6.2

/-- One link of the chain of checks: none of them fails when this one and the later ones hold. -/
theorem ite_some_eq_none_iff {c : Prop} [Decidable c] (k : Nat) (later : Option Nat) :
    (if c then some k else later) = none ↔ ¬ c ∧ later = none := by
  by_cases hc : c <;> simp [hc]

/-- The evaluated checks find no failure exactly when the configuration is valid (R142, R143). -/
theorem firstFailingCheck_eq_none_iff (s : State) :
    firstFailingCheck s.p.toNat s.g.toNat s.radix.toNat s.width.toNat (symbols s) = none ↔ CfgOK s := by
  rw [cfgOK_iff]
  simp only [firstFailingCheck, ite_some_eq_none_iff, not_not, Bool.not_eq_false, and_true,
    checkDistinct_iff_checkHolds, checkPrime_iff_checkHolds]
  refine and_congr_right fun _ => and_congr_right fun _ => and_congr_right fun _ =>
    and_congr_right fun _ => and_congr_right fun h5 => and_congr_right fun h6 => ?_
  rw [checkPrimitiveRoot_iff_checkHolds h5 h6]
  rfl

end Sys2Proof.Machine

/-! ## What each command can do (R31, R32, R51, R60, R114, R143, R246) -/

namespace Sys2Proof.Machine

open Sys2Proof.Safety

/-- How the command `i` can end in `s`, with the state it leaves. It sharpens `exec_cases` by the command: only
some write `RES` or a string, a string is `WIDTH` symbols long, and VALIDATE's verdict is the predicate's. -/
inductive CommandEnd (i : Instr) (s : State) : State → Prop where
  | error (k : ErrorKind) (info : Nat) : CommandEnd i s (raise s k info)
  | done : CommandEnd i s (succeed s)
  | result (n : Nat) (hi : writesRes i = true) : CommandEnd i s (succeed (putRes n s))
  | string (out : List Byte) (hi : writesCode i = true) (hlen : out.length = s.width.toNat) :
      CommandEnd i s (succeed (putString out s))
  | valid (hi : i = .validate) (hcfg : CfgOK s) : CommandEnd i s (succeed (putCfgv true s))
  | invalid (k : Nat) (hi : i = .validate) (hcfg : ¬ CfgOK s) :
      CommandEnd i s (raise (putCfgv false s) .configInvalid k)

theorem length_of_toStr {radix width x : Nat} {syms out : List Byte}
    (h : toStr radix width syms x = .ok out) : out.length = width := by
  unfold toStr at h
  split at h
  · cases h
  · cases h
    simp

theorem length_of_encodeCounter {p g radix width c : Nat} {syms out : List Byte}
    (h : encodeCounter p g radix width syms c = .ok out) : out.length = width := by
  unfold encodeCounter at h
  cases hs : scramble p g c with
  | ok x =>
    rw [hs] at h
    exact length_of_toStr h
  | err k info =>
    rw [hs] at h
    cases h

section

variable {i : Instr} {s t : State}

theorem commandEnd_of_conclude {α : Type} {a : Answer α} {put : α → State → State}
    (hput : ∀ x, a = .ok x → CommandEnd i s (succeed (put x s))) (h : conclude s a put = .next t) :
    CommandEnd i s t := by
  rcases (conclude_eq_next s t a put).1 h with ⟨x, hx, rfl⟩ | ⟨k, info, -, rfl⟩
  · exact hput x hx
  · exact .error k info

theorem commandEnd_of_whenConfigured {body : StepResult}
    (hbody : body = .next t → CommandEnd i s t) (h : whenConfigured s body = .next t) :
    CommandEnd i s t := by
  rcases (whenConfigured_eq_next s t body).1 h with ⟨-, ht⟩ | ⟨-, rfl⟩
  · exact hbody ht
  · exact .error .notConfigured 0

theorem commandEnd_of_execValidate (h : execValidate s = .next t) : CommandEnd .validate s t := by
  unfold execValidate at h
  split at h
  case h_1 hnone =>
    cases h
    exact .valid rfl ((firstFailingCheck_eq_none_iff s).1 hnone)
  case h_2 k hsome =>
    cases h
    refine .invalid k rfl fun hcfg => ?_
    rw [(firstFailingCheck_eq_none_iff s).2 hcfg] at hsome
    cases hsome

/-- Every command ends as `CommandEnd` lists. -/
theorem commandEnd_of_exec (h : exec i s = .next t) : CommandEnd i s t := by
  cases i with
  | nop =>
    cases h
    exact .done
  | validate => exact commandEnd_of_execValidate h
  | modexp => exact commandEnd_of_conclude (fun n _ => .result n rfl) h
  | modinv => exact commandEnd_of_conclude (fun n _ => .result n rfl) h
  | scramble => exact commandEnd_of_whenConfigured (commandEnd_of_conclude fun n _ => .result n rfl) h
  | unscramble => exact commandEnd_of_whenConfigured (commandEnd_of_conclude fun n _ => .result n rfl) h
  | tostr =>
    exact commandEnd_of_whenConfigured
      (commandEnd_of_conclude fun out hout => .string out rfl (length_of_toStr hout)) h
  | fromstr => exact commandEnd_of_whenConfigured (commandEnd_of_conclude fun n _ => .result n rfl) h
  | encode =>
    exact commandEnd_of_whenConfigured
      (commandEnd_of_conclude fun out hout => .string out rfl (length_of_encodeCounter hout)) h
  | decode => exact commandEnd_of_whenConfigured (commandEnd_of_conclude fun n _ => .result n rfl) h

end

/-- A string of `WIDTH` symbols stays below entry `WIDTH` (R60). -/
theorem storeSymbols_getElem?_of_length_le {out : List Byte} {buf : Vector Byte 32} {k : Nat}
    (h : out.length ≤ k) : (storeSymbols out 0 buf)[k]? = buf[k]? := by
  by_cases hk : k < 32
  · rw [storeSymbols_getElem? out 0 buf k hk, if_neg (by omega)]
  · rw [Vector.getElem?_eq_none (by omega), Vector.getElem?_eq_none (by omega)]

/-- Settles O40: each way a command can end writes what its constructor says and nothing else. -/
theorem commandsWriteOnlyTheirRegisters : Obligations.CommandsWriteOnlyTheirRegisters := by
  intro i s t h
  cases commandEnd_of_exec h with
  | error k info => simp
  | done => simp
  | result n hi => simp [hi]
  | string out hi hlen => simp +contextual [hi, ← hlen, storeSymbols_getElem?_of_length_le]
  | valid hi hcfg => simp [hi]
  | invalid k hi hcfg => simp [hi]

end Sys2Proof.Machine

/-! ## The steps of the machine (R8, R36, R37, R66) -/

namespace Sys2Proof.Machine

open Sys2Proof.Safety

/-- What one step can be, with the state it leaves: the engine's completion, a step of which the block keeps no
trace, a host write to a register, or a reset. -/
inductive StepEvent (s : State) : State → Prop where
  | completion {t : State} (rest : List AgentStep) (hbusy : s.busy = true) (hturn : EngineTurn s)
      (hend : complete (setAgenda s rest) = .next t) : StepEvent s t
  | quiet (later : List AgentStep) (words : List Word) : StepEvent s { s with agenda := later, reads := words }
  | write (r : Reg) (v : Word) (rest : List AgentStep) (hhead : s.agenda = .write (regAddr r) v :: rest) :
      StepEvent s (writeReg (setAgenda s rest) r v)
  | reset (rest : List AgentStep) (hhead : s.agenda = .reset :: rest) :
      StepEvent s (takeReset (setAgenda s rest))

/-- A host write is a write to the register at the address, or leaves no trace at a reserved one (R67, R83). -/
theorem stepEvent_portWrite {s : State} {a : PortAddr} {v : Word} {rest : List AgentStep}
    (hhead : s.agenda = .write a v :: rest) : StepEvent s (portWrite (setAgenda s rest) a v) := by
  rcases reserved_or_regAddr a with hres | ⟨r, rfl⟩
  · rw [portWrite_of_reserved hres]
    exact .quiet rest s.reads
  · rw [portWrite_regAddr]
    exact .write r v rest hhead

theorem stepEvent_of_step {s t : State} (h : step s = .next t) : StepEvent s t := by
  rcases step_cases s with ⟨hb, hs, ha⟩ | ⟨rest, hb, ha, hs⟩ | ⟨-, -, hs⟩ | ⟨rest, -, -, hs⟩ |
    ⟨a, later, hs⟩ | ⟨a, v, rest, ha, hs⟩ | ⟨rest, ha, hs⟩ <;> rw [hs] at h
  · exact .completion s.agenda hb (ha.imp_right .inr) h
  · exact .completion rest hb (.inr (.inl ⟨rest, ha⟩)) h
  · cases h
    exact .quiet s.agenda s.reads
  · cases h
    exact .quiet rest s.reads
  · cases h
    exact .quiet later _
  · cases h
    exact stepEvent_portWrite ha
  · cases h
    exact .reset rest ha

/-- `complete_done`, for the state that a completion is known to leave. -/
theorem flags_of_complete {s t : State} (h : complete s = .next t) :
    t.busy = false ∧ t.done = true ∧ t.haz = s.haz := by
  obtain ⟨t', ht', hbusy, hdone, -, hhaz, -, -⟩ := complete_done s
  rw [h] at ht'
  cases ht'
  exact ⟨hbusy, hdone, hhaz⟩

/-- Settles O11: a completion leaves `BUSY = 0`, a write raises it only at `CMD` and never lowers it, and only a
reset does anything else to it. -/
theorem sequencerHasThreeTransitions : Obligations.SequencerHasThreeTransitions := by
  intro s t h
  cases stepEvent_of_step h with
  | completion rest hbusy hturn hend =>
    obtain ⟨hidle, -, -⟩ := flags_of_complete hend
    exact ⟨by simp [hidle], fun _ _ => .inl hturn⟩
  | quiet later words => exact ⟨by simp +contextual, by simp +contextual⟩
  | write r v rest hhead =>
    rw [writeReg_busy]
    refine ⟨fun hidle hrise => ?_, by simp +contextual⟩
    have hr : r = .cmd := by simpa [hidle] using hrise
    subst hr
    exact ⟨v, rest, hhead⟩
  | reset rest hhead => exact ⟨by simp, fun _ _ => .inr ⟨rest, hhead⟩⟩

/-- Settles O13: a completion and a reset end with `BUSY = 0`, and a write while `BUSY = 1` reaches no register
but those named. -/
theorem runningCommandSeesFrozenRegisters : Obligations.RunningCommandSeesFrozenRegisters := by
  intro s t hbusy h hstill
  cases stepEvent_of_step h with
  | completion rest _ _ hend =>
    obtain ⟨hidle, -, -⟩ := flags_of_complete hend
    simp [hidle] at hstill
  | quiet later words => rfl
  | write r v rest hhead =>
    rw [writeReg_of_busy (setAgenda s rest) r v hbusy]
    rfl
  | reset rest hhead => simp at hstill

/-! ### `CFGV` at a completion (R143) -/

theorem opcode_of_instrOfOpcode {op : Byte} {i : Instr} (h : instrOfOpcode op = some i) : i.opcode = op := by
  unfold instrOfOpcode at h
  split at h <;> cases h <;> exact BitVec.eq_of_toNat_eq (Eq.symm ‹_›)

/-- A word that decodes is the encoding of its command (R110, R112). -/
theorem encode_of_decode {w : Word} {i : Instr} (h : Sys2Proof.decode w = .ok i) : encode i = w := by
  unfold Sys2Proof.decode at h
  split at h
  case isFalse => cases h
  case isTrue hzero =>
    split at h
    case h_2 => cases h
    case h_1 hop =>
      cases h
      calc encode i = 0#24 ++ opcodeField w := by rw [encode, opcode_of_instrOfOpcode hop]
        _ = zeroField w ++ opcodeField w := congrArg (· ++ opcodeField w) hzero.symm
        _ = w := BitVec.extractLsb'_append_extractLsb' (w := 24) (len := 8)

/-- A completion changes `CFGV` only when it is VALIDATE's, and then to what the predicate says (R143). -/
theorem cfgv_of_complete {s t : State} (h : complete s = .next t) :
    t.cfgv = s.cfgv ∨ s.cmdw = 0x00000001#32 ∧
      (CfgOK s ∧ t.cfgv = true ∨ ¬ CfgOK s ∧ t.cfgv = false ∧ t.err = 6#8) := by
  rcases complete_cases s with ⟨i, hdec, hs⟩ | ⟨r, -, hs⟩ <;> rw [hs] at h
  · cases commandEnd_of_exec h with
    | valid hi hcfg =>
      subst hi
      exact .inr ⟨(encode_of_decode hdec).symm, .inl ⟨hcfg, rfl⟩⟩
    | invalid k hi hcfg =>
      subst hi
      exact .inr ⟨(encode_of_decode hdec).symm, .inr ⟨hcfg, rfl, rfl⟩⟩
    | _ => exact .inl rfl
  · cases h
    exact .inl rfl

/-! ### When the flags of `STATUS` change (R37) -/

section

variable {s t : State}

theorem done_of_stepEvent (h : StepEvent s t) :
    (s.done = false → t.done = true → s.busy = true ∧ t.busy = false ∧ EngineTurn s) ∧
    (s.done = true → t.done = false →
      (s.busy = false ∧ ∃ v rest, s.agenda = .write 0x02#7 v :: rest) ∨
      (∃ v rest, s.agenda = .write 0x03#7 v :: rest ∧ v.getLsbD 1 = true) ∨
      (∃ rest, s.agenda = .reset :: rest)) := by
  cases h with
  | completion rest hbusy hturn hend =>
    obtain ⟨hidle, hdone, -⟩ := flags_of_complete hend
    exact ⟨fun _ _ => ⟨hbusy, hidle, hturn⟩, by simp [hdone]⟩
  | quiet later words => exact ⟨by simp +contextual, by simp +contextual⟩
  | write r v rest hhead =>
    rw [writeReg_done]
    refine ⟨by simp +contextual, fun hset hclear => ?_⟩
    have hwhy : (r = .status ∧ v.getLsbD 1 = true) ∨ (r = .cmd ∧ s.busy = false) := by
      simpa [hset, or_iff_not_imp_left] using hclear
    rcases hwhy with ⟨rfl, hv⟩ | ⟨rfl, hidle⟩
    · exact .inr (.inl ⟨v, rest, hhead, hv⟩)
    · exact .inl ⟨hidle, v, rest, hhead⟩
  | reset rest hhead => exact ⟨by simp, fun _ _ => .inr (.inr ⟨rest, hhead⟩)⟩

theorem cfgv_of_stepEvent (h : StepEvent s t) :
    (s.cfgv = false → t.cfgv = true →
      s.busy = true ∧ t.busy = false ∧ EngineTurn s ∧ s.cmdw = 0x00000001#32 ∧ CfgOK s) ∧
    (s.cfgv = true → t.cfgv = false →
      (s.busy = true ∧ t.busy = false ∧ EngineTurn s ∧ s.cmdw = 0x00000001#32 ∧ ¬ CfgOK s ∧ t.err = 6#8) ∨
      (s.busy = false ∧ ∃ a v rest, s.agenda = .write a v :: rest ∧ ConfigAddr a) ∨
      (∃ rest, s.agenda = .reset :: rest)) := by
  cases h with
  | completion rest hbusy hturn hend =>
    obtain ⟨hidle, -, -⟩ := flags_of_complete hend
    rcases cfgv_of_complete hend with hsame | ⟨hcmdw, ⟨hcfg, hset⟩ | ⟨hcfg, hclear, herr⟩⟩
    · rw [hsame]
      exact ⟨by simp +contextual, by simp +contextual⟩
    · exact ⟨fun _ _ => ⟨hbusy, hidle, hturn, hcmdw, hcfg⟩, by simp [hset]⟩
    · exact ⟨by simp [hclear], fun _ _ => .inl ⟨hbusy, hidle, hturn, hcmdw, hcfg, herr⟩⟩
  | quiet later words => exact ⟨by simp +contextual, by simp +contextual⟩
  | write r v rest hhead =>
    rw [writeReg_cfgv]
    refine ⟨by simp +contextual, fun hset hclear => ?_⟩
    obtain ⟨hidle, hr⟩ : s.busy = false ∧ isConfigReg r = true := by simpa [hset] using hclear
    exact .inr (.inl ⟨hidle, _, v, rest, hhead, (configAddr_regAddr r).2 hr⟩)
  | reset rest hhead => exact ⟨by simp, fun _ _ => .inr (.inr ⟨rest, hhead⟩)⟩

theorem haz_of_stepEvent (h : StepEvent s t) :
    (s.haz = false → t.haz = true → s.busy = true ∧ ∃ a v rest, s.agenda = .write a v :: rest) ∧
    (s.haz = true → t.haz = false →
      (∃ v rest, s.agenda = .write 0x03#7 v :: rest ∧ v.getLsbD 3 = true) ∨
      (∃ rest, s.agenda = .reset :: rest)) := by
  cases h with
  | completion rest hbusy hturn hend =>
    obtain ⟨-, -, hhaz⟩ := flags_of_complete hend
    rw [hhaz]
    exact ⟨by simp +contextual, by simp +contextual⟩
  | quiet later words => exact ⟨by simp +contextual, by simp +contextual⟩
  | write r v rest hhead =>
    rw [writeReg_haz]
    refine ⟨fun hclear hset => ?_, fun hset hclear => ?_⟩
    · obtain ⟨hbusy, -⟩ : s.busy = true ∧ writeClass r = .gated := by simpa [hclear] using hset
      exact ⟨hbusy, _, v, rest, hhead⟩
    · obtain ⟨⟨rfl, hv⟩, -⟩ : (r = .status ∧ v.getLsbD 3 = true) ∧ (s.busy = true → writeClass r ≠ .gated) := by
        simpa [hset] using hclear
      exact .inl ⟨v, rest, hhead, hv⟩
  | reset rest hhead => exact ⟨by simp, fun _ _ => .inr ⟨rest, hhead⟩⟩

end

/-- Settles O12, flag by flag over the events of a step. -/
theorem flagsChangeOnlyAsTabled : Obligations.FlagsChangeOnlyAsTabled := by
  intro s t h
  have hevent := stepEvent_of_step h
  obtain ⟨hdoneRise, hdoneFall⟩ := done_of_stepEvent hevent
  obtain ⟨hcfgvRise, hcfgvFall⟩ := cfgv_of_stepEvent hevent
  obtain ⟨hhazRise, hhazFall⟩ := haz_of_stepEvent hevent
  exact ⟨hdoneRise, hdoneFall, hcfgvRise, hcfgvFall, hhazRise, hhazFall⟩

end Sys2Proof.Machine

/-! ## Host transactions and the words of the port (R80, R82, R83, R86, R90) -/

namespace Sys2Proof.Machine

/-! ### A transaction as a step (R80, R90) -/

/-- What a read returns does not depend on the agenda (R82). -/
@[simp] theorem readReg_setAgenda (s : State) (l : List AgentStep) (r : Reg) :
    readReg (setAgenda s l) r = readReg s r := by
  cases r <;> rfl

@[simp] theorem portRead_setAgenda (s : State) (l : List AgentStep) (a : PortAddr) :
    portRead (setAgenda s l) a = portRead s a := by
  rcases reserved_or_regAddr a with hres | ⟨r, rfl⟩
  · rw [portRead_of_reserved hres, portRead_of_reserved hres]
  · simp

theorem hostRead_setAgenda (s : State) (l : List AgentStep) (a : PortAddr) :
    hostRead (setAgenda s l) a = { s with agenda := l, reads := portRead s a :: s.reads } := by
  rw [hostRead, portRead_setAgenda]
  rfl

theorem step_of_read {s : State} {a : PortAddr} {rest : List AgentStep} (h : s.agenda = .read a :: rest) :
    step s = .next (hostRead (setAgenda s rest) a) := by
  simp [step, agentStep, h]

theorem step_of_write {s : State} {a : PortAddr} {v : Word} {rest : List AgentStep}
    (h : s.agenda = .write a v :: rest) : step s = .next (portWrite (setAgenda s rest) a v) := by
  simp [step, agentStep, h]

/-- Settles O9: the entry at the head of the agenda is the step, and using it up changes no register that the
read returns. -/
theorem hostTransactionsAreSteps : Obligations.HostTransactionsAreSteps := by
  refine ⟨fun s a rest h => ?_, fun s a v rest h => step_of_write h⟩
  rw [step_of_read h, hostRead_setAgenda]

/-! ### The words that a read returns (R42, R44, R47, R60, R61, R82) -/

theorem bitWord_toNat (b : Bool) : (bitWord b).toNat = b.toNat := by
  cases b <;> rfl

/-- A field put above a low part that stays below it adds its value, scaled, to the word. -/
theorem toNat_or_shiftLeft {low field : Word} {k : Nat} (hlow : low.toNat < 2 ^ k)
    (hfit : field.toNat * 2 ^ k < 2 ^ 32) : (low ||| field <<< k).toNat = low.toNat + 2 ^ k * field.toNat := by
  have hfield : (field <<< k).toNat = 2 ^ k * field.toNat := by
    rw [BitVec.toNat_shiftLeft, Nat.shiftLeft_eq, Nat.mod_eq_of_lt hfit, Nat.mul_comm]
  rw [BitVec.toNat_or, hfield, Nat.or_comm, ← Nat.two_pow_add_eq_or_of_lt hlow, Nat.add_comm]

theorem zeroExtend_toNat (b : Byte) : (b.zeroExtend 32).toNat = b.toNat :=
  BitVec.toNat_setWidth_of_le (by decide)

/-- The four flags at the low end of `STATUS` (R44). -/
theorem statusFlags_toNat (busy done cfgv haz : Bool) :
    (bitWord busy ||| bitWord done <<< 1 ||| bitWord cfgv <<< 2 ||| bitWord haz <<< 3).toNat =
      busy.toNat + 2 * done.toNat + 4 * cfgv.toNat + 8 * haz.toNat := by
  decide +revert

/-- `STATUS` is the sum of its fields: flags below bit 8, `ERR` in bits 15:8, `OP` in bits 23:16 (R44). -/
theorem statusWord_toNat (s : State) : (statusWord s).toNat =
    s.busy.toNat + 2 * s.done.toNat + 4 * s.cfgv.toNat + 8 * s.haz.toNat + 2 ^ 8 * s.err.toNat +
      2 ^ 16 * s.op.toNat := by
  have hbusy := s.busy.toNat_le
  have hdone := s.done.toNat_le
  have hcfgv := s.cfgv.toNat_le
  have hhaz := s.haz.toNat_le
  have hflags := statusFlags_toNat s.busy s.done s.cfgv s.haz
  have herr := zeroExtend_toNat s.err
  have hop := zeroExtend_toNat s.op
  have hlow := toNat_or_shiftLeft (low := bitWord s.busy ||| bitWord s.done <<< 1 |||
    bitWord s.cfgv <<< 2 ||| bitWord s.haz <<< 3) (field := s.err.zeroExtend 32) (k := 8) (by omega) (by omega)
  rw [statusWord, toNat_or_shiftLeft (by omega) (by omega)]
  omega

/-- The truncated `P - 1` fits its word (R47, R82). -/
theorem readReg_n_toNat (s : State) : (readReg s .n).toNat = s.p.toNat - 1 :=
  (BitVec.toNat_ofNat _ _).trans (Nat.mod_eq_of_lt (Nat.lt_of_le_of_lt (Nat.sub_le _ _) s.p.isLt))

/-- Settles O16: every address is a register's, and reads as `readReg` says, or is reserved and reads 0. -/
theorem portReadReturnsTheRegister : Obligations.PortReadReturnsTheRegister := by
  intro s
  have hread := portRead_regAddr s
  refine ⟨hostTransactionsAreSteps.1 s, hread .id, ?ctrl, hread .cmd, ?status, hread .errinfo, hread .p,
    hread .g, ?n, hread .radix, hread .width, hread .opa, hread .opb, hread .opm, hread .res,
    hread .codelen, fun j hj => ?code, fun i hi => ?alpha,
    fun a ha => portRead_of_reserved ((regAt_eq_none_iff a).2 ha)⟩
  case ctrl => exact (congrArg BitVec.toNat (hread .ctrl)).trans (bitWord_toNat s.ie)
  case status => exact (congrArg BitVec.toNat (hread .status)).trans (statusWord_toNat s)
  case n => exact (congrArg BitVec.toNat (hread .n)).trans (readReg_n_toNat s)
  case code => exact (congrArg BitVec.toNat (hread (.code ⟨j, hj⟩))).trans (zeroExtend_toNat _)
  case alpha => exact (congrArg BitVec.toNat (hread (.alpha ⟨i, hi⟩))).trans (zeroExtend_toNat _)

/-! ### Writes of classes 2 and 3 (R83, R86) -/

theorem writeReg_of_ignored {r : Reg} (h : writeClass r = .ignored) (s : State) (v : Word) :
    writeReg s r v = s := by
  simp [writeReg, h]

theorem writeReg_of_idle {s : State} {r : Reg} (h : writeClass r = .gated) (hb : s.busy = false) (v : Word) :
    writeReg s r v = performWrite s r v := by
  simp [writeReg, h, hb]

/-- Settles O18: the four registers are the ones of class 2, and the other addresses have no register. -/
theorem readOnlyAndReservedWritesAreIgnored : Obligations.ReadOnlyAndReservedWritesAreIgnored := by
  intro s a v ha
  have hignored : ∀ r, writeClass r = .ignored → portWrite s (regAddr r) v = s := fun r hr => by
    rw [portWrite_regAddr, writeReg_of_ignored hr]
  rcases ha with rfl | rfl | rfl | rfl | hres
  · exact hignored .id rfl
  · exact hignored .errinfo rfl
  · exact hignored .n rfl
  · exact hignored .res rfl
  · exact portWrite_of_reserved ((regAt_eq_none_iff a).2 hres)

/-- Settles O20: each of the addresses is that of a register of class 3, so with `BUSY = 0` its write is
performed. -/
theorem idleWritesArePerformed : Obligations.IdleWritesArePerformed := by
  intro s v hb
  have hidle : ∀ r, writeClass r = .gated → portWrite s (regAddr r) v = performWrite s r v := fun r hr => by
    rw [portWrite_regAddr, writeReg_of_idle hr hb]
  exact ⟨hidle .p rfl, hidle .g rfl, hidle .radix rfl, hidle .width rfl, hidle .opa rfl, hidle .opb rfl,
    hidle .opm rfl, hidle .codelen rfl, fun j hj => hidle (.code ⟨j, hj⟩) rfl,
    fun i hi => hidle (.alpha ⟨i, hi⟩) rfl⟩

end Sys2Proof.Machine

/-! ## Decoding (R110, R112, R113, R115) -/

namespace Sys2Proof.Machine

theorem encodingShape (i : Instr) : Laws.EncodingShape.Statement i := by
  cases i with
  | nop => exact Laws.EncodingShape.nop
  | validate => exact Laws.EncodingShape.validate
  | modexp => exact Laws.EncodingShape.modexp
  | modinv => exact Laws.EncodingShape.modinv
  | scramble => exact Laws.EncodingShape.scramble
  | unscramble => exact Laws.EncodingShape.unscramble
  | tostr => exact Laws.EncodingShape.tostr
  | fromstr => exact Laws.EncodingShape.fromstr
  | encode => exact Laws.EncodingShape.encode
  | decode => exact Laws.EncodingShape.decode

theorem instrOfOpcode_opcode (i : Instr) : instrOfOpcode i.opcode = some i := by
  cases i <;> rfl

/-- The word of a command decodes to that command (R112, R113). -/
theorem decode_encode (i : Instr) : Sys2Proof.decode (encode i) = .ok i := by
  obtain ⟨-, hzero, hop⟩ := encodingShape i
  simp [Sys2Proof.decode, hzero, hop, instrOfOpcode_opcode]

theorem decode_eq_ok_iff {w : Word} {i : Instr} : Sys2Proof.decode w = .ok i ↔ encode i = w := by
  refine ⟨encode_of_decode, ?_⟩
  rintro rfl
  exact decode_encode i

/-- Settles O3: `decode_encode` and `encode_of_decode`, and every command is well formed. -/
theorem decodeAndEncodeAgree : Obligations.DecodeAndEncodeAgree := by
  refine ⟨fun i _ => decode_encode i, fun w i h => ⟨?_, encode_of_decode h⟩⟩
  obtain ⟨hwf, -, -⟩ := encodingShape i
  exact hwf

/-- Each command has one row, whose match is its word and whose mask takes every bit (R113). -/
theorem mem_opcodeRows_iff {i : Instr} {m k : Word} :
    (i, m, k) ∈ opcodeRows ↔ m = encode i ∧ k = BitVec.allOnes 32 := by
  cases i <;> simp [opcodeRows, encode, Instr.opcode]

/-- Settles O2: under a mask of ones a row matches its command's word and no other. -/
theorem decodeFollowsMatchAndMask : Obligations.DecodeFollowsMatchAndMask := by
  intro w i
  rw [decode_eq_ok_iff]
  constructor
  · rintro rfl
    exact ⟨_, _, mem_opcodeRows_iff.2 ⟨rfl, rfl⟩, BitVec.and_allOnes⟩
  · rintro ⟨m, k, hrow, hmatch⟩
    obtain ⟨rfl, rfl⟩ := mem_opcodeRows_iff.1 hrow
    rw [← hmatch, BitVec.and_allOnes]

theorem opcodeField_toNat (w : Word) : (opcodeField w).toNat = w.toNat % 256 := by
  simp [opcodeField]

theorem zeroField_eq_zero_iff (w : Word) : zeroField w = 0 ↔ w.toNat < 256 := by
  have hw := w.isLt
  have hfield : (zeroField w).toNat = w.toNat / 256 % 2 ^ 24 := by
    simp [zeroField, Nat.shiftRight_eq_div_pow]
  have hzero : (0 : BitVec 24).toNat = 0 := rfl
  rw [← BitVec.toNat_inj, hfield, hzero]
  omega

theorem instrOfOpcode_eq_none_iff (op : Byte) : instrOfOpcode op = none ↔ 9 < op.toNat := by
  decide +revert

/-- The decoder refuses a word for one of two reasons: its `zero` field or its opcode (R112, R115). -/
theorem decode_eq_error_iff (w : Word) :
    (∃ r, Sys2Proof.decode w = .error r) ↔ zeroField w ≠ 0 ∨ instrOfOpcode (opcodeField w) = none := by
  unfold Sys2Proof.decode
  split
  case isTrue hzero => cases instrOfOpcode (opcodeField w) <;> simp [hzero]
  case isFalse hzero => exact iff_of_true ⟨_, rfl⟩ (.inl hzero)

/-- Settles O4: the two reasons of `decode_eq_error_iff` as numbers, and a word that decodes is its command's. -/
theorem illegalWordsAreTheRest : Obligations.IllegalWordsAreTheRest := by
  intro w
  constructor
  · rw [decode_eq_error_iff, ne_eq, zeroField_eq_zero_iff, Nat.not_lt, instrOfOpcode_eq_none_iff,
      opcodeField_toNat]
  · intro i h
    obtain ⟨-, -, hop⟩ := encodingShape i
    rw [← opcodeField_toNat, ← encode_of_decode h, hop]

/-- Settles O1: ten words are the commands' own, and in the other three the opcode or the `zero` field is one
that R112 refuses. -/
theorem commandWordsOfTheMapDecode : Obligations.CommandWordsOfTheMapDecode :=
  ⟨decode_encode .nop, decode_encode .validate, decode_encode .modexp, decode_encode .modinv,
    decode_encode .scramble, decode_encode .unscramble, decode_encode .tostr, decode_encode .fromstr,
    decode_encode .encode, decode_encode .decode, rfl, rfl, rfl⟩

end Sys2Proof.Machine

/-! ## Accepting and completing a command as steps (R111, R115, R246) -/

namespace Sys2Proof.Machine

section

variable {s : State} {rest : List AgentStep}

theorem step_of_empty (hb : s.busy = true) (h : s.agenda = []) : step s = complete s := by
  simp [step, agentStep, h, hb]

theorem step_of_engine (hb : s.busy = true) (h : s.agenda = .engine :: rest) :
    step s = complete (setAgenda s rest) := by
  simp [step, agentStep, h, hb]

theorem step_of_wait_busy (hb : s.busy = true) (h : s.agenda = .wait :: rest) : step s = complete s := by
  simp [step, agentStep, h, hb]

/-- A host in WAIT reads `STATUS` once `BUSY = 0` (R118). -/
theorem step_of_wait_idle (hb : s.busy = false) (h : s.agenda = .wait :: rest) :
    step s = .next { s with agenda := rest, reads := statusWord s :: s.reads } := by
  simp [step, agentStep, h, hb, hostRead_setAgenda, readReg]

end

theorem complete_of_decode {s : State} {i : Instr} (h : Sys2Proof.decode s.cmdw = .ok i) :
    complete s = exec i s := by
  simp [complete, h]

/-- An illegal word's completion writes its error record and nothing else (R115, R247). -/
theorem complete_of_illegal {s : State} {r : DecodeRefusal} (h : Sys2Proof.decode s.cmdw = .error r) :
    complete s = .next { s with err := 8#8, errinfo := s.cmdw, busy := false, done := true } := by
  simp [complete, h, raise, kindCode]

/-- Settles O7: at each of the three agendas the step is the completion, and that is `complete_of_illegal`. -/
theorem illegalWordCompletesWithIllegalCommand : Obligations.IllegalWordCompletesWithIllegalCommand := by
  intro s r hb hr
  refine ⟨fun h => ?_, fun rest h => ?_, fun rest h => ?_⟩
  · rw [step_of_empty hb h, complete_of_illegal hr]
  · rw [step_of_engine hb h]
    exact complete_of_illegal (s := setAgenda s rest) hr
  · rw [step_of_wait_busy hb h, complete_of_illegal hr]

theorem writeReg_of_busy_gated {s : State} {r : Reg} (h : writeClass r = .gated) (hb : s.busy = true) (v : Word) :
    writeReg s r v = dropWrite s := by
  simp [writeReg, h, hb]

/-- A write to a register at the head of the agenda is the step (R83, R90). -/
theorem step_of_writeReg {s : State} {r : Reg} {v : Word} {rest : List AgentStep}
    (h : s.agenda = .write (regAddr r) v :: rest) : step s = .next (writeReg (setAgenda s rest) r v) := by
  rw [step_of_write h, portWrite_regAddr]

/-- With `BUSY = 0` a write of class 3 at the head of the agenda is performed (R83). -/
theorem step_of_gated_idle {s : State} {r : Reg} {v : Word} {rest : List AgentStep} (hc : writeClass r = .gated)
    (hb : s.busy = false) (h : s.agenda = .write (regAddr r) v :: rest) :
    step s = .next (performWrite (setAgenda s rest) r v) := by
  rw [step_of_writeReg h, writeReg_of_idle (s := setAgenda s rest) hc hb]

/-- Settles O10: `CMD` is a register of class 3, so its write is performed or dropped as `BUSY` says. -/
theorem cmdWriteIsAccepted : Obligations.CmdWriteIsAccepted := by
  intro s v rest h
  refine ⟨fun hb => step_of_gated_idle (r := .cmd) rfl hb h, fun hb => ?_⟩
  rw [step_of_writeReg (r := .cmd) h, writeReg_of_busy_gated (s := setAgenda s rest) rfl hb]
  rfl

end Sys2Proof.Machine

/-! ## Host statements (R118) -/

namespace Sys2Proof.Machine

/-- `k` steps of the machine lead from `s` to `t`. -/
def Steps (k : Nat) (s t : State) : Prop := Host.Core.run core k s = .next t

theorem Steps.zero (s : State) : Steps 0 s s := rfl

theorem Steps.cons {k : Nat} {s t u : State} (h : step s = .next t) (hrest : Steps k t u) : Steps (k + 1) s u := by
  have hcore : core.step s = .next t := h
  simpa [Steps, Host.Core.run, hcore] using hrest

/-! ### RUN -/

/-- Settles O53: the write is accepted, the waiting host lets the engine complete, and then reads `STATUS`. -/
theorem runStatementCompletes : Obligations.RunStatementCompletes := by
  intro s i rest hb h
  have haccept : step s = .next (acceptCommand { s with agenda := .wait :: rest } (encode i)) :=
    step_of_gated_idle (r := .cmd) rfl hb h
  have hexec := complete_of_decode (s := acceptCommand { s with agenda := .wait :: rest } (encode i))
    (decode_encode i)
  obtain ⟨t, hend, hidle, -, -, -, hagenda, hreads⟩ :=
    complete_done (acceptCommand { s with agenda := .wait :: rest } (encode i))
  have hcomplete := (step_of_wait_busy (rest := rest) rfl rfl).trans hend
  have hpoll := step_of_wait_idle hidle hagenda
  rw [hreads] at hpoll
  exact ⟨t, hexec.symm.trans hend, hidle, Steps.cons haccept (.cons hcomplete (.cons hpoll (.zero _)))⟩

/-! ### SETCODE and SETALPHA -/

/-- The low bytes of `cs` stored in consecutive entries from entry `j` on, as consecutive writes to a byte array
store them (R60, R61). -/
def storeLowBytes {n : Nat} : List Word → Nat → Vector Byte n → Vector Byte n
  | [], _, buf => buf
  | c :: cs, j, buf => storeLowBytes cs (j + 1) (buf.setIfInBounds j (BitVec.ofNat 8 c.toNat))

theorem storeLowBytes_getElem?_of_outside {n : Nat} {cs : List Word} {j k : Nat} {buf : Vector Byte n}
    (h : k < j ∨ j + cs.length ≤ k) : (storeLowBytes cs j buf)[k]? = buf[k]? := by
  induction cs generalizing j buf with
  | nil => rfl
  | cons c cs ih =>
    rw [List.length_cons] at h
    rw [storeLowBytes, ih (by omega), Vector.getElem?_setIfInBounds_ne (by omega)]

theorem storeLowBytes_getElem?_of_inside {n : Nat} {cs : List Word} {j k : Nat} {buf : Vector Byte n}
    (hfit : j + cs.length ≤ n) (hk : k < cs.length) :
    (storeLowBytes cs j buf)[j + k]? = (cs[k]?).map fun v => BitVec.ofNat 8 v.toNat := by
  induction cs generalizing j k buf with
  | nil => simp at hk
  | cons c cs ih =>
    rw [List.length_cons] at hfit hk
    rw [storeLowBytes]
    cases k with
    | zero =>
      rw [Nat.add_zero j, storeLowBytes_getElem?_of_outside (by omega),
        Vector.getElem?_setIfInBounds_self_of_lt (by omega)]
      rfl
    | succ k =>
      rw [show j + (k + 1) = j + 1 + k by omega, ih (by omega) (by omega), List.getElem?_cons_succ]

/-- `put` replaces a byte array of `n` entries whose entry 0 stands at word address `base`: with `BUSY = 0`, the
step at a write to entry `j` is to store the low byte there. -/
def IsByteArrayAt {n : Nat} (base : Nat) (put : Vector Byte n → State → State) : Prop :=
  ∀ (s : State) (buf : Vector Byte n) (j : Fin n) (v : Word) (rest : List AgentStep), s.busy = false →
    s.agenda = .write (BitVec.ofNat 7 (base + j)) v :: rest →
    step (put buf s) = .next (put (buf.setIfInBounds j (BitVec.ofNat 8 v.toNat)) (setAgenda s rest))

/-- Consecutive writes load the array from entry `j` on, one step each. -/
theorem steps_writesFrom {n base : Nat} {put : Vector Byte n → State → State} (hput : IsByteArrayAt base put)
    {s u : State} {cs : List Word} {j k : Nat} {rest : List AgentStep} (buf : Vector Byte n)
    (hb : s.busy = false) (hfit : j + cs.length ≤ n) (h : s.agenda = writesFrom (base + j) cs ++ rest)
    (hrest : Steps k (put (storeLowBytes cs j buf) (setAgenda s rest)) u) :
    Steps (cs.length + k) (put buf s) u := by
  induction cs generalizing s j buf with
  | nil =>
    have hs : setAgenda s rest = s := by
      rw [← List.nil_append rest, ← writesFrom, ← h]
      rfl
    rw [hs] at hrest
    simpa [storeLowBytes] using hrest
  | cons c cs ih =>
    rw [List.length_cons] at hfit ⊢
    have hj : j < n := by omega
    have hstep := hput s buf ⟨j, hj⟩ c (writesFrom (base + j + 1) cs ++ rest) hb h
    rw [Nat.add_right_comm]
    exact .cons hstep (ih (s := setAgenda s _) _ hb (by omega) rfl hrest)

theorem set_eq_setIfInBounds {n : Nat} (buf : Vector Byte n) (j : Fin n) (b : Byte) :
    buf.set j b = buf.setIfInBounds j b := by
  ext k hk
  rw [Vector.getElem_set, Vector.getElem_setIfInBounds]

def putCode (buf : Vector Byte 32) (s : State) : State := { s with code := buf }

/-- A write to an alphabet entry also clears `CFGV` (R52). -/
def putAlpha (table : Vector Byte 64) (s : State) : State := { s with alpha := table, cfgv := false }

theorem performWrite_code (s : State) (j : Fin 32) (v : Word) :
    performWrite s (.code j) v = putCode (s.code.setIfInBounds j (BitVec.ofNat 8 v.toNat)) s := by
  rw [← set_eq_setIfInBounds]
  rfl

theorem performWrite_alpha (s : State) (i : Fin 64) (v : Word) :
    performWrite s (.alpha i) v = putAlpha (s.alpha.setIfInBounds i (BitVec.ofNat 8 v.toNat)) s := by
  rw [← set_eq_setIfInBounds]
  rfl

theorem isByteArrayAt_putCode : IsByteArrayAt 0x20 putCode := by
  intro s buf j v rest hb h
  have hstep := step_of_gated_idle (s := putCode buf s) (r := .code j) rfl hb h
  rwa [performWrite_code] at hstep

theorem isByteArrayAt_putAlpha : IsByteArrayAt 0x40 putAlpha := by
  intro s table i v rest hb h
  have hstep := step_of_gated_idle (s := putAlpha table s) (r := .alpha i) rfl hb h
  rwa [performWrite_alpha] at hstep

/-- Settles O54: `steps_writesFrom` at the code buffer, then the write of `CODELEN`. -/
theorem setCodeLoadsTheString : Obligations.SetCodeLoadsTheString := by
  intro s cs rest hb hwf h
  have hlen : cs.length ≤ 32 := of_decide_eq_true hwf
  have hcodelen := step_of_gated_idle (r := .codelen)
    (s := putCode (storeLowBytes cs 0 s.code) (setAgenda s (wrStep .codelen (Word.ofNat cs.length) :: rest)))
    rfl hb rfl
  refine ⟨storeLowBytes cs 0 s.code, ?_, fun j hj => ?_, fun j hj => ?_⟩
  · exact steps_writesFrom isByteArrayAt_putCode (j := 0) s.code hb (by omega)
      (h.trans (List.append_assoc _ _ _)) (.cons hcodelen (.zero _))
  · simpa using storeLowBytes_getElem?_of_inside (j := 0) (buf := s.code) (by omega) hj
  · exact storeLowBytes_getElem?_of_outside (.inr (by omega))

/-- Settles O55: the first write clears `CFGV`, so it is taken apart from the others, which are
`steps_writesFrom` at the alphabet table. -/
theorem setAlphaLoadsTheTable : Obligations.SetAlphaLoadsTheTable := by
  intro s cs rest hb hne hwf h
  have hlen : cs.length ≤ 64 := of_decide_eq_true hwf
  refine ⟨storeLowBytes cs 0 s.alpha, ?_, fun j hj => ?_, fun j hj => ?_⟩
  · cases cs with
    | nil => exact absurd rfl hne
    | cons c cs =>
      rw [List.length_cons] at hlen
      have hfirst := step_of_gated_idle (r := .alpha 0) rfl hb h
      rw [performWrite_alpha] at hfirst
      exact Steps.cons hfirst
        (steps_writesFrom isByteArrayAt_putAlpha (j := 1) (k := 0)
          (s := setAgenda s (writesFrom (0x40 + 1) cs ++ rest)) _ hb (by omega) rfl (.zero _))
  · simpa using storeLowBytes_getElem?_of_inside (j := 0) (buf := s.alpha) (by omega) hj
  · exact storeLowBytes_getElem?_of_outside (.inr (by omega))

/-! ### GETCODE -/

/-- What a read returns does not depend on what was read before (R82). -/
@[simp] theorem portRead_hostRead (s : State) (a b : PortAddr) : portRead (hostRead s a) b = portRead s b := by
  rcases reserved_or_regAddr b with hres | ⟨r, rfl⟩
  · rw [portRead_of_reserved hres, portRead_of_reserved hres]
  · rw [portRead_regAddr, portRead_regAddr]
    cases r <;> rfl

/-- Consecutive reads hand the host the words of one state, one step each (R82). -/
theorem steps_reads {s : State} {as : List PortAddr} {rest : List AgentStep}
    (h : s.agenda = as.map .read ++ rest) :
    Steps as.length s { s with agenda := rest, reads := (as.map (portRead s)).reverse ++ s.reads } := by
  induction as generalizing s with
  | nil =>
    rw [← List.nil_append rest, ← List.map_nil (f := AgentStep.read), ← h]
    exact .zero s
  | cons a as ih =>
    have hrest := ih (s := hostRead (setAgenda s (as.map .read ++ rest)) a) rfl
    have hwords : portRead (hostRead (setAgenda s (as.map .read ++ rest)) a) = portRead s := by
      funext b
      simp
    rw [hwords] at hrest
    simpa using .cons (step_of_read h) hrest

/-- The addresses of `CODE[0]` to `CODE[len - 1]` (R40, R60). -/
def codeAddrs (len : Nat) : List PortAddr := (List.range len).map fun j => BitVec.ofNat 7 (0x20 + j)

theorem codeReads_eq {len : Nat} (h : len ≤ 32) : codeReads len = (codeAddrs len).map .read := by
  rw [codeReads, codeAddrs, Config.wMax, Nat.min_eq_left h, List.map_map]
  rfl

theorem portRead_code (s : State) {j : Nat} (hj : j < 32) :
    portRead s (BitVec.ofNat 7 (0x20 + j)) = BitVec.ofNat 32 s.code[j].toNat :=
  (portRead_regAddr s (.code ⟨j, hj⟩)).trans (by simp [readReg, Vector.get_eq_getElem])

/-- What reads of the first `len` entries return (R82). -/
theorem map_portRead_codeAddrs (s : State) {len : Nat} (h : len ≤ 32) :
    (codeAddrs len).map (portRead s) = (s.code.toList.take len).map fun b => BitVec.ofNat 32 b.toNat := by
  apply List.ext_getElem
  · simp [codeAddrs, h]
  · intro j hj _
    have hlen : j < len := by simpa [codeAddrs] using hj
    simp [codeAddrs, portRead_code s (Nat.lt_of_lt_of_le hlen h)]

theorem step_of_getCode {s : State} {rest : List AgentStep} (h : s.agenda = .getCode :: rest) :
    step s = .next { s with agenda := codeReads s.codelen.toNat ++ rest, reads := s.codelen :: s.reads } := by
  simp [step, agentStep, h, hostRead_setAgenda, readReg]

/-- Settles O56: `CODELEN` is read first, and the reads it leads to are those of the first `CODELEN` entries. -/
theorem getCodeReturnsTheString : Obligations.GetCodeReturnsTheString := by
  intro s rest hlen h
  have hfirst := step_of_getCode h
  rw [codeReads_eq hlen] at hfirst
  have hreads := steps_reads (as := codeAddrs s.codelen.toNat) (rest := rest)
    (s := { s with agenda := (codeAddrs s.codelen.toNat).map .read ++ rest, reads := s.codelen :: s.reads }) rfl
  rw [map_portRead_codeAddrs _ hlen, codeAddrs, List.length_map, List.length_range] at hreads
  exact Steps.cons hfirst hreads

end Sys2Proof.Machine

/-! ## The control and configuration commands (40_control_config.md) -/

/-! ### NOP and VALIDATE (R141, R142, R143) -/

namespace Sys2Proof.Machine

open Sys2Proof.Safety

/-- Settles O27: NOP is `succeed` and nothing else, also of the state that accepting its word 0 leaves. -/
theorem nopOnlyCompletes : Obligations.NopOnlyCompletes := by
  intro s
  have hnop : ∀ s, exec .nop s = .next (succeed s) := fun _ => rfl
  exact ⟨hnop s, hnop (acceptCommand s (encode .nop))⟩

/-- All checks with a number below `k` hold. -/
def ChecksHoldBelow (k : Nat) (s : State) : Prop := ∀ j, 1 ≤ j → j < k → CheckHolds j s

theorem checksHoldBelow_one (s : State) : ChecksHoldBelow 1 s := by
  intro j hj hj1
  omega

theorem checksHoldBelow_succ {k : Nat} {s : State} (hbelow : ChecksHoldBelow k s) (hk : CheckHolds k s) :
    ChecksHoldBelow (k + 1) s := by
  intro j hj hjk
  rcases Nat.lt_succ_iff_lt_or_eq.1 hjk with hlt | rfl
  · exact hbelow j hj hlt
  · exact hk

/-- `found` is right about the first failing check, in a state where all checks below `k` hold. -/
def FindsFirstFrom (k : Nat) (s : State) (found : Option Nat) : Prop :=
  ChecksHoldBelow k s → ∀ n, found = some n → FirstFailing n s

theorem findsFirstFrom_none (k : Nat) (s : State) : FindsFirstFrom k s none := by
  intro _ n hn
  cases hn

/-- One link of the chain of checks: `c` is the failure of check `k`, once the earlier checks hold (R143). -/
theorem findsFirstFrom_ite {k : Nat} {s : State} {c : Prop} [Decidable c] {later : Option Nat}
    (hk : 1 ≤ k ∧ k ≤ 8) (hc : ChecksHoldBelow k s → (¬ c ↔ CheckHolds k s)) (hlater : FindsFirstFrom (k + 1) s later) :
    FindsFirstFrom k s (if c then some k else later) := by
  intro hbelow n hn
  by_cases hfail : c
  · rw [if_pos hfail] at hn
    cases hn
    exact ⟨hk.1, hk.2, fun hholds => (hc hbelow).2 hholds hfail, hbelow⟩
  · rw [if_neg hfail] at hn
    exact hlater (checksHoldBelow_succ hbelow ((hc hbelow).1 hfail)) n hn

/-- The evaluated checks find the first failing one (R142, R143). -/
theorem firstFailing_of_firstFailingCheck {s : State} {k : Nat}
    (h : firstFailingCheck s.p.toNat s.g.toNat s.radix.toNat s.width.toNat (symbols s) = some k) :
    FirstFailing k s := by
  suffices hfinds : FindsFirstFrom 1 s
      (firstFailingCheck s.p.toNat s.g.toNat s.radix.toNat s.width.toNat (symbols s)) from
    hfinds (checksHoldBelow_one s) k h
  unfold firstFailingCheck
  refine findsFirstFrom_ite (by decide) (fun _ => not_not) ?_
  refine findsFirstFrom_ite (by decide) (fun _ => not_not) ?_
  refine findsFirstFrom_ite (by decide) (fun _ => not_not) ?_
  refine findsFirstFrom_ite (by decide) (fun _ => ?_) ?_
  · rw [Bool.not_eq_false, checkDistinct_iff_checkHolds]
  refine findsFirstFrom_ite (by decide) (fun _ => ?_) ?_
  · rw [Bool.not_eq_false, checkPrime_iff_checkHolds]
  refine findsFirstFrom_ite (by decide) (fun _ => not_not) ?_
  refine findsFirstFrom_ite (by decide) (fun hbelow => ?_) ?_
  · rw [Bool.not_eq_false, checkPrimitiveRoot_iff_checkHolds (hbelow 5 (by decide) (by decide))
      (hbelow 6 (by decide) (by decide))]
  exact findsFirstFrom_ite (by decide) (fun _ => not_not) (findsFirstFrom_none 9 s)

/-- Settles O28: VALIDATE answers what the evaluated checks find, and they find no failure exactly when the
configuration is valid, else the first failing check. -/
theorem validateDecidesTheConfiguration : Obligations.ValidateDecidesTheConfiguration := by
  intro s
  have hexec : exec .validate s = execValidate s := rfl
  rw [← firstFailingCheck_eq_none_iff, hexec, execValidate]
  cases hfound : firstFailingCheck s.p.toNat s.g.toNat s.radix.toNat s.width.toNat (symbols s) with
  | none => exact ⟨fun _ => rfl, fun hne => absurd rfl hne⟩
  | some k => exact ⟨nofun, fun _ => ⟨k, firstFailing_of_firstFailingCheck hfound, rfl⟩⟩

end Sys2Proof.Machine

/-! ### Every step keeps the invariant (R145) -/

namespace Sys2Proof.Machine

open Sys2Proof.Safety

theorem kindCode_ne_zero (k : ErrorKind) : kindCode k ≠ 0#8 := by
  cases k <;> decide

theorem kindCode_toNat_le (k : ErrorKind) : (kindCode k).toNat ≤ 10 := by
  cases k <;> decide

section

variable {s t : State} (h : Inv s)

include h

/-- `Inv` does not speak of the operands, the result, the string, `IE`, `HAZ` and the host's side. -/
theorem inv_frame {opa opb opm res codelen : Word} {ie haz : Bool} {code : Vector Byte 32}
    {agenda : List AgentStep} {reads : List Word} :
    Inv { s with opa := opa, opb := opb, opm := opm, res := res, codelen := codelen, code := code, ie := ie,
                 haz := haz, agenda := agenda, reads := reads } :=
  ⟨h.configured, h.running, h.opcode, h.kind, h.detail⟩

/-- With `CFGV = 0` any configuration will do (R52). -/
theorem inv_unconfigured {p g radix width : Word} {alpha : Vector Byte 64} :
    Inv { s with p := p, g := g, radix := radix, width := width, alpha := alpha, cfgv := false } :=
  ⟨nofun, h.running, h.opcode, h.kind, h.detail⟩

/-- `CFGV` may be set when the configuration is valid (R143). -/
theorem inv_putCfgv {b : Bool} (hb : b = true → CfgOK s) : Inv (putCfgv b s) :=
  ⟨hb, h.running, h.opcode, h.kind, h.detail⟩

theorem inv_succeed : Inv (succeed s) := ⟨h.configured, nofun, h.opcode, h.kind, h.detail⟩

theorem inv_raise (k : ErrorKind) (info : Nat) : Inv (raise s k info) :=
  ⟨h.configured, nofun, h.opcode, kindCode_toNat_le k, fun hk => absurd hk (kindCode_ne_zero k)⟩

/-- An accepted command starts with no error and `DONE = 0`, and `OP` is its low byte (R111). -/
theorem inv_acceptCommand (v : Word) : Inv (acceptCommand s v) :=
  ⟨h.configured, fun _ => ⟨rfl, rfl, rfl⟩, rfl, by simp, fun _ => rfl⟩

/-- A write to `STATUS` can clear `DONE` and never sets it (R44). -/
theorem inv_writeStatus (v : Word) : Inv (writeStatus s v) := by
  refine ⟨h.configured, fun hbusy => ?_, h.opcode, h.kind, h.detail⟩
  obtain ⟨hdone, herr, hinfo⟩ := h.running hbusy
  exact ⟨by simp [hdone], herr, hinfo⟩

theorem inv_performWrite (r : Reg) (v : Word) : Inv (performWrite s r v) := by
  cases r with
  | cmd => exact inv_acceptCommand h v
  | status => exact inv_writeStatus h v
  | p | g | radix | width | alpha => exact inv_unconfigured h
  | ctrl | opa | opb | opm | codelen | code => exact inv_frame h
  | id | errinfo | n | res => exact h

theorem inv_writeReg (r : Reg) (v : Word) : Inv (writeReg s r v) := by
  rcases writeReg_cases s r v with ⟨-, hw⟩ | ⟨-, hw⟩ | ⟨-, -, hw⟩ | ⟨-, -, hw⟩ <;> rw [hw]
  · exact h
  · exact inv_performWrite h r v
  · exact inv_frame h
  · exact inv_performWrite h r v

/-- Of the ways a command can end only VALIDATE's success sets `CFGV`, and then the configuration is valid
(R143, R145). -/
theorem inv_of_commandEnd {i : Instr} (hend : CommandEnd i s t) : Inv t := by
  cases hend with
  | error k info => exact inv_raise h k info
  | done => exact inv_succeed h
  | result n _ => exact inv_succeed (inv_frame h)
  | string out _ _ => exact inv_succeed (inv_frame h)
  | valid _ hcfg => exact inv_succeed (inv_putCfgv h fun _ => hcfg)
  | invalid k _ _ => exact inv_raise (inv_putCfgv (b := false) h nofun) .configInvalid k

theorem inv_of_complete (hend : complete s = .next t) : Inv t := by
  rcases complete_cases s with ⟨i, -, hs⟩ | ⟨r, -, hs⟩ <;> rw [hs] at hend
  · exact inv_of_commandEnd h (commandEnd_of_exec hend)
  · cases hend
    exact inv_raise h _ _

end

/-- Settles O51: each event of a step keeps `Inv`, and a reset establishes it. -/
theorem everyStepKeepsTheInvariant : Obligations.EveryStepKeepsTheInvariant := by
  intro s t h hstep
  cases stepEvent_of_step hstep with
  | completion rest _ _ hend => exact inv_of_complete (inv_frame h) hend
  | quiet later words => exact inv_frame h
  | write r v rest _ => exact inv_writeReg (inv_frame h) r v
  | reset rest _ => exact inv_frame resetMeetsTheInvariants.1

end Sys2Proof.Machine

/-! ## Modular arithmetic (R161, R162, R163, R165, R166) -/

namespace Sys2Proof.Machine

theorem modmul_lt {m : Nat} (hm : 0 < m) (a b : Nat) : modmul a b m < m := Nat.mod_lt _ hm

/-- Reducing the product takes away a multiple of the modulus (R161). -/
theorem mul_eq_div_mul_add_modmul (a b m : Nat) : a * b = a * b / m * m + modmul a b m :=
  (Nat.div_add_mod' _ _).symm

/-- Settles O29: both factors are below `2 ^ 32`, and `modmul` is the remainder of the full product. -/
theorem modularProductIsExact : Obligations.ModularProductIsExact := by
  intro a b m ha hb hm
  have hproduct : a * b < 2 ^ 32 * 2 ^ 32 := Nat.mul_lt_mul'' (ha.trans hm) (hb.trans hm)
  exact ⟨hproduct, modmul_lt (Nat.zero_lt_of_lt ha) a b, _, mul_eq_div_mul_add_modmul a b m⟩

/-! ### The two commands, by the answer of their unit (R163, R166) -/

section

variable {s : State}

theorem execModexp_of_opm_eq_zero (h : s.opm = 0#32) : execModexp s = .next (raise s .badOperand 0) := by
  rw [execModexp, modexpAnswer, if_pos (by rw [h]; rfl), conclude_err]

theorem execModexp_of_opm_ne_zero (h : s.opm ≠ 0#32) :
    execModexp s = .next (succeed (putRes (s.opa.toNat ^ s.opb.toNat % s.opm.toNat) s)) := by
  rw [execModexp, modexpAnswer, if_neg (BitVec.toNat_pos_of_ne_zero h).ne', modexp_eq _ _ _ s.opb.isLt,
    conclude_ok]

theorem execModinv_of_opm_eq_zero (h : s.opm = 0#32) : execModinv s = .next (raise s .badOperand 0) := by
  rw [execModinv, modinvAnswer, if_pos (by rw [h]; rfl), conclude_err]

theorem execModinv_of_opm_ne_zero (h : s.opm ≠ 0#32) :
    execModinv s = conclude s (modinv s.opa.toNat s.opm.toNat) putRes := by
  rw [execModinv, modinvAnswer, if_neg (BitVec.toNat_pos_of_ne_zero h).ne']

end

/-- Settles O30: `modexp_eq` under the `OPM = 0` test, since the exponent is a 32-bit word. -/
theorem modexpComputesThePower : Obligations.ModexpComputesThePower := by
  intro s
  exact ⟨execModexp_of_opm_eq_zero, fun hm =>
    ⟨Nat.mod_lt _ (BitVec.toNat_pos_of_ne_zero hm), execModexp_of_opm_ne_zero hm⟩⟩

/-- An inverse modulo `m` is the only one below `m` (R165). -/
theorem inverse_unique {a m x y : Nat} (hgcd : Nat.gcd (a % m) m = 1) (hx : x < m) (hy : y < m)
    (hax : a * x % m = 1 % m) (hay : a * y % m = 1 % m) : y = x := by
  have hcoprime : Nat.gcd m a = 1 := (Nat.gcd_rec m a).trans hgcd
  have hmod : a * y ≡ a * x [MOD m] := hay.trans hax.symm
  exact (hmod.cancel_left_of_coprime hcoprime).eq_of_lt_of_lt hy hx

/-- Settles O31: extended Euclid answers the gcd when it is not 1, and else an inverse, which is the only one. -/
theorem modinvComputesTheInverse : Obligations.ModinvComputesTheInverse := by
  intro s
  refine ⟨execModinv_of_opm_eq_zero, fun hm hgcd => ?_, fun hm hgcd => ?_⟩
  · exact (execModinv_of_opm_ne_zero hm).trans (by rw [modinv_of_gcd_ne_one _ _ hgcd]; rfl)
  · obtain ⟨x, hanswer, hx, hax⟩ := modinv_of_gcd_eq_one _ _ (BitVec.toNat_pos_of_ne_zero hm) hgcd
    refine ⟨x, hx, hax, fun y hy hay => inverse_unique hgcd hx hy hax hay, ?_⟩
    exact (execModinv_of_opm_ne_zero hm).trans (by rw [hanswer]; rfl)

end Sys2Proof.Machine

/-! ## The permutation (42_permutation.md) -/

/-! ### The powers of a primitive root (R182) -/

namespace Sys2Proof.Machine

open Sys2Proof.Safety

/-- Checks 5 and 7 say that `P` is prime and `G` a primitive root modulo `P`. -/
theorem isPrimitiveRoot_of_cfgOK {s : State} (h : CfgOK s) :
    Fact s.p.toNat.Prime ∧ IsPrimitiveRoot (s.g.toNat : ZMod s.p.toNat) (s.p.toNat - 1) := by
  obtain ⟨-, -, -, -, h5, -, ⟨⟨hpos, hone⟩, hleast⟩, -⟩ := (cfgOK_iff s).1 h
  have hprime := (prime_iff_no_divisor _).2 h5
  have hpow (k : Nat) : s.g.toNat ^ k % s.p.toNat = 1 ↔ (s.g.toNat : ZMod s.p.toNat) ^ k = 1 := by
    rw [pow_mod_eq_one_iff _ _ _ hprime, orderOf_dvd_iff_pow_eq_one]
  refine ⟨⟨hprime⟩, .mk_of_lt _ hpos ((hpow _).1 hone) fun k hk hlt hk1 => ?_⟩
  exact hlt.not_ge (hleast ⟨hk, (hpow k).2 hk1⟩)

section

variable {p g : Nat} [Fact p.Prime] (hroot : IsPrimitiveRoot (g : ZMod p) (p - 1))

include hroot

theorem generator_ne_zero : (g : ZMod p) ≠ 0 := by
  have hp := (Fact.out : p.Prime).two_le
  exact (hroot.isUnit (by omega)).ne_zero

/-- No power of the generator is 0, so a scrambled value is in `[1, P - 1]`. -/
theorem scrambled_bounds (c : Nat) : 1 ≤ g ^ (c + 1) % p ∧ g ^ (c + 1) % p ≤ p - 1 := by
  have hlt : g ^ (c + 1) % p < p := Nat.mod_lt _ (Fact.out : p.Prime).pos
  have hne : g ^ (c + 1) % p ≠ 0 := by
    rw [Ne, ← Nat.dvd_iff_mod_eq_zero, ← ZMod.natCast_eq_zero_iff, Nat.cast_pow]
    exact pow_ne_zero _ (generator_ne_zero hroot)
  omega

/-- The generator cancels, and its first `P - 1` powers are different. -/
theorem scrambled_injective {c d : Nat} (hc : c < p - 1) (hd : d < p - 1)
    (h : g ^ (c + 1) % p = g ^ (d + 1) % p) : c = d := by
  have hcast : (g : ZMod p) ^ c * g = (g : ZMod p) ^ d * g := by
    simpa [pow_succ] using (ZMod.natCast_eq_natCast_iff' _ _ _).2 h
  exact hroot.pow_inj hc hd (mul_right_cancel₀ (generator_ne_zero hroot) hcast)

/-- `v / G` is not 0, so it is one of the first `P - 1` powers of the generator. -/
theorem exists_scrambled_eq {v : Nat} (hv : 1 ≤ v) (hvp : v ≤ p - 1) :
    ∃ c, c < p - 1 ∧ g ^ (c + 1) % p = v := by
  have hp := (Fact.out : p.Prime).two_le
  have hlt : v < p := by omega
  have : NeZero (p - 1) := ⟨by omega⟩
  have hg := generator_ne_zero hroot
  have hv0 : (v : ZMod p) ≠ 0 := by
    rw [Ne, ZMod.natCast_eq_zero_iff]
    exact Nat.not_dvd_of_pos_of_lt hv hlt
  obtain ⟨c, hc, hpow⟩ := hroot.eq_pow_of_pow_eq_one (ZMod.pow_card_sub_one_eq_one (div_ne_zero hv0 hg))
  refine ⟨c, hc, ?_⟩
  have hcast : ((g ^ (c + 1) : Nat) : ZMod p) = (v : ZMod p) := by
    rw [Nat.cast_pow, pow_succ, hpow, div_mul_cancel₀ _ hg]
  rw [(ZMod.natCast_eq_natCast_iff' _ _ _).1 hcast, Nat.mod_eq_of_lt hlt]

/-- A scrambled value has no other counter, so the search finds the one it came from (R184). -/
theorem unscramble_scrambled {c : Nat} (hc : c < p - 1) : unscramble p g (g ^ (c + 1) % p) = .ok c := by
  obtain ⟨hpos, hle⟩ := scrambled_bounds hroot c
  refine unscramble_of_least p g _ c hpos (by omega) hc rfl fun j hj hsame => ?_
  exact hj.ne (scrambled_injective hroot (hj.trans hc) hc hsame)

end

theorem scramble_eq_ok_iff {p g c v : Nat} (hc : c < p - 1) (hp : p < 2 ^ 32) :
    scramble p g c = .ok v ↔ g ^ (c + 1) % p = v := by
  rw [scramble_of_lt p g c hc hp, Answer.ok.injEq]

/-- Settles O44: the powers of a primitive root are different and not 0, and every residue but 0 is one of them. -/
theorem scrambleIsABijection : Obligations.ScrambleIsABijection := by
  intro s hcfg
  obtain ⟨hprime, hroot⟩ := isPrimitiveRoot_of_cfgOK hcfg
  constructor
  · intro c hc
    obtain ⟨hpos, hle⟩ := scrambled_bounds hroot c
    exact ⟨_, hpos, hle, scramble_of_lt _ _ _ hc s.p.isLt⟩
  · intro v hv hvp
    obtain ⟨c, hc, hcv⟩ := exists_scrambled_eq hroot hv hvp
    refine ⟨c, ⟨hc, (scramble_eq_ok_iff hc s.p.isLt).2 hcv⟩, ?_⟩
    rintro d ⟨hd, hdv⟩
    exact scrambled_injective hroot hd hc (((scramble_eq_ok_iff hd s.p.isLt).1 hdv).trans hcv.symm)

end Sys2Proof.Machine

/-! ### SCRAMBLE and UNSCRAMBLE (R183, R184, R186) -/

namespace Sys2Proof.Machine

open Sys2Proof.Safety

theorem word_ofNat_toNat (w : Word) : Word.ofNat w.toNat = w := by
  rw [Word.ofNat, BitVec.ofNat_toNat, BitVec.setWidth_eq]

section

variable {s : State}

theorem exec_scramble_of_unconfigured (h : s.cfgv = false) :
    exec .scramble s = .next (raise s .notConfigured 0) := whenConfigured_of_false s _ h

theorem exec_scramble_of_configured (h : s.cfgv = true) :
    exec .scramble s = conclude s (scramble s.p.toNat s.g.toNat s.opa.toNat) putRes := whenConfigured_of_true s _ h

theorem exec_unscramble_of_unconfigured (h : s.cfgv = false) :
    exec .unscramble s = .next (raise s .notConfigured 0) := whenConfigured_of_false s _ h

theorem exec_unscramble_of_configured (h : s.cfgv = true) :
    exec .unscramble s = conclude s (unscramble s.p.toNat s.g.toNat s.opa.toNat) putRes :=
  whenConfigured_of_true s _ h

/-- The record of an error whose detail is a register's value. -/
theorem conclude_err_toNat {α : Type} (k : ErrorKind) (w : Word) (put : α → State → State) :
    conclude s (.err k w.toNat) put =
      .next { s with err := kindCode k, errinfo := w, busy := false, done := true } := by
  rw [conclude_err, raise, word_ofNat_toNat]

end

/-- Settles O32: `scramble` answers by the range test. -/
theorem scrambleComputesThePower : Obligations.ScrambleComputesThePower := by
  intro s
  refine ⟨exec_scramble_of_unconfigured, fun hcfgv hle => ?_, fun hcfgv hlt => ?_⟩
  · rw [exec_scramble_of_configured hcfgv, scramble_of_le _ _ _ hle]
    exact conclude_err_toNat .outOfRange s.opa putRes
  · rw [exec_scramble_of_configured hcfgv, scramble_of_lt _ _ _ hlt s.p.isLt]
    rfl

/-- Settles O33: `unscramble` answers by the bounds test and the search. -/
theorem unscrambleFindsTheLeastCounter : Obligations.UnscrambleFindsTheLeastCounter := by
  intro s
  refine ⟨exec_unscramble_of_unconfigured, fun hcfgv hbounds => ?_, fun hcfgv _ _ hnone => ?_,
    fun c hcfgv hne hlt hc hcv hleast => ?_⟩
  · have hbounds' : s.opa.toNat = 0 ∨ s.p.toNat ≤ s.opa.toNat := hbounds.imp_left fun h => by rw [h]; rfl
    rw [exec_unscramble_of_configured hcfgv, unscramble_of_out_of_bounds _ _ _ hbounds']
    exact conclude_err_toNat .invalidCode s.opa putRes
  · rw [exec_unscramble_of_configured hcfgv, unscramble_of_none _ _ _ hnone]
    exact conclude_err_toNat .invalidCode s.opa putRes
  · rw [exec_unscramble_of_configured hcfgv,
      unscramble_of_least _ _ _ c (BitVec.toNat_pos_of_ne_zero hne) hlt hc hcv hleast]
    rfl

/-- Settles O34: every value in `[1, P - 1]` is a scrambled value, and the search finds its counter. -/
theorem unscrambleSucceedsOnEveryScrambledValue : Obligations.UnscrambleSucceedsOnEveryScrambledValue := by
  rintro s ⟨hcfgv, hcfg⟩ hv hvp
  obtain ⟨hprime, hroot⟩ := isPrimitiveRoot_of_cfgOK hcfg
  obtain ⟨c, hc, hcv⟩ := exists_scrambled_eq hroot hv hvp
  refine ⟨c, hc, hcv, ?_⟩
  rw [exec_unscramble_of_configured hcfgv, ← hcv, unscramble_scrambled hroot hc]
  rfl

/-! ### SCRAMBLE and UNSCRAMBLE are inverse (R187) -/

/-- The state after the command `i` is accepted and ends with the result `n` (R111, R246). -/
def finished (i : Instr) (n : Nat) (s : State) : State := succeed (putRes n (acceptCommand s (encode i)))

section

variable {s : State} (hcfgv : s.cfgv = true)

include hcfgv

theorem runs_scramble {v : Nat} (h : scramble s.p.toNat s.g.toNat s.opa.toNat = .ok v) :
    Runs .scramble s (finished .scramble v s) := by
  have hexec := exec_scramble_of_configured (s := acceptCommand s (encode .scramble)) hcfgv
  rw [acceptCommand_p, acceptCommand_g, acceptCommand_opa, h] at hexec
  exact hexec

theorem runs_unscramble {c : Nat} (h : unscramble s.p.toNat s.g.toNat s.opa.toNat = .ok c) :
    Runs .unscramble s (finished .unscramble c s) := by
  have hexec := exec_unscramble_of_configured (s := acceptCommand s (encode .unscramble)) hcfgv
  rw [acceptCommand_p, acceptCommand_g, acceptCommand_opa, h] at hexec
  exact hexec

end

theorem finished_res_toNat (i : Instr) (s : State) {n : Nat} (hn : n < 2 ^ 32) :
    (finished i n s).res.toNat = n := Nat.mod_eq_of_lt hn

theorem finished_res_of_toNat (i : Instr) (s : State) (w : Word) : (finished i w.toNat s).res = w :=
  word_ofNat_toNat w

/-- Settles O45: the second command finds in `OPA` the number the first one answered, and takes it back. -/
theorem scrambleAndUnscrambleAreInverse : Obligations.ScrambleAndUnscrambleAreInverse := by
  constructor
  · rintro s ⟨hcfgv, hcfg⟩ hlt
    obtain ⟨hprime, hroot⟩ := isPrimitiveRoot_of_cfgOK hcfg
    have hvalue : s.g.toNat ^ (s.opa.toNat + 1) % s.p.toNat < 2 ^ 32 :=
      (Nat.mod_lt _ hprime.out.pos).trans s.p.isLt
    refine ⟨_, _, runs_scramble hcfgv (scramble_of_lt _ _ _ hlt s.p.isLt),
      runs_unscramble (c := s.opa.toNat) ?_ ?_, finished_res_of_toNat _ _ _, rfl, rfl⟩
    · exact hcfgv
    · rw [finished_res_toNat _ _ hvalue]
      exact unscramble_scrambled hroot hlt
  · rintro s ⟨hcfgv, hcfg⟩ hv hvp
    obtain ⟨hprime, hroot⟩ := isPrimitiveRoot_of_cfgOK hcfg
    obtain ⟨c, hc, hcv⟩ := exists_scrambled_eq hroot hv hvp
    have hanswer := hcv ▸ unscramble_scrambled hroot hc
    have hcounter : c < 2 ^ 32 := hc.trans_le ((Nat.sub_le _ _).trans s.p.isLt.le)
    refine ⟨_, _, runs_unscramble hcfgv hanswer, runs_scramble (v := s.opa.toNat) ?_ ?_,
      finished_res_of_toNat _ _ _, rfl, rfl⟩
    · exact hcfgv
    · rw [finished_res_toNat _ _ hcounter]
      exact (scramble_eq_ok_iff hc s.p.isLt).2 hcv

end Sys2Proof.Machine

/-! ## The radix codec (43_radix_codec.md) -/

/-! ### Digits (R200) -/

namespace Sys2Proof.Machine

open Sys2Proof.Safety

/-- The last digit is the least significant one. -/
theorem digitsValue_succ (radix width : Nat) (d : Nat → Nat) :
    digitsValue radix (width + 1) d = digitsValue radix width d * radix + d width := by
  rw [digitsValue, Finset.sum_range_succ, digitsValue, Finset.sum_mul, Nat.add_sub_cancel, Nat.sub_self, pow_zero,
    mul_one]
  congr 1
  refine Finset.sum_congr rfl fun j hj => ?_
  have hexp : width - j = width - 1 - j + 1 := by
    have := Finset.mem_range.1 hj
    omega
  rw [hexp, pow_succ, mul_assoc]

theorem digitsValue_congr {radix width : Nat} {d e : Nat → Nat} (h : ∀ j, j < width → d j = e j) :
    digitsValue radix width d = digitsValue radix width e :=
  Finset.sum_congr rfl fun j hj => by rw [h j (Finset.mem_range.1 hj)]

theorem digit_succ_self (radix width x : Nat) : digit radix (width + 1) x width = x % radix := by
  simp [digit]

/-- The other digits are those of the quotient by the radix. -/
theorem digit_succ_of_lt {radix width x j : Nat} (hj : j < width) :
    digit radix (width + 1) x j = digit radix width (x / radix) j := by
  have hexp : width + 1 - 1 - j = width - 1 - j + 1 := by omega
  rw [digit, digit, hexp, pow_succ', Nat.div_div_eq_div_mul]

/-- A number below `RADIX ^ WIDTH` is the value of its digits. -/
theorem digitsValue_digit {radix width x : Nat} (hx : x < radix ^ width) :
    digitsValue radix width (digit radix width x) = x := by
  induction width generalizing x with
  | zero =>
    rw [pow_zero, Nat.lt_one_iff] at hx
    rw [hx]
    rfl
  | succ width ih =>
    have hquot : x / radix < radix ^ width := Nat.div_lt_of_lt_mul (by rwa [pow_succ'] at hx)
    rw [digitsValue_succ, digit_succ_self, digitsValue_congr fun j => digit_succ_of_lt, ih hquot,
      Nat.div_add_mod']

theorem digitsValue_lt {radix width : Nat} {d : Nat → Nat} (hd : ∀ j, j < width → d j < radix) :
    digitsValue radix width d < radix ^ width := by
  induction width with
  | zero => exact Nat.one_pos
  | succ width ih =>
    have hlast := hd width (Nat.lt_succ_self _)
    have hinit := ih fun j hj => hd j (hj.trans (Nat.lt_succ_self _))
    calc digitsValue radix (width + 1) d
        = digitsValue radix width d * radix + d width := digitsValue_succ _ _ _
      _ < digitsValue radix width d * radix + radix := Nat.add_lt_add_left hlast _
      _ = (digitsValue radix width d + 1) * radix := (Nat.succ_mul _ _).symm
      _ ≤ radix ^ width * radix := Nat.mul_le_mul_right _ hinit
      _ = radix ^ (width + 1) := (pow_succ _ _).symm

/-- A value has no other digits than those it is made of. -/
theorem digit_digitsValue {radix width : Nat} {d : Nat → Nat} (hd : ∀ j, j < width → d j < radix) {j : Nat}
    (hj : j < width) : digit radix width (digitsValue radix width d) j = d j := by
  induction width with
  | zero => exact absurd hj (Nat.not_lt_zero _)
  | succ width ih =>
    have hlast := hd width (Nat.lt_succ_self _)
    rw [digitsValue_succ]
    rcases Nat.lt_succ_iff_lt_or_eq.1 hj with hj | rfl
    · have hquot : (digitsValue radix width d * radix + d width) / radix = digitsValue radix width d := by
        rw [Nat.mul_comm, Nat.mul_add_div (Nat.zero_lt_of_lt hlast), Nat.div_eq_of_lt hlast, Nat.add_zero]
      rw [digit_succ_of_lt hj, hquot]
      exact ih (fun k hk => hd k (hk.trans (Nat.lt_succ_self _))) hj
    · rw [digit_succ_self, Nat.mul_add_mod_of_lt hlast]

/-- The scan of R205 accumulates the value of its digits. -/
theorem digitsFold_range (radix width : Nat) (d : Nat → Nat) :
    digitsFold radix 0 ((List.range width).map d) = digitsValue radix width d := by
  induction width with
  | zero => rfl
  | succ width ih =>
    rw [digitsValue_succ, ← ih, List.range_succ, List.map_append, digitsFold, List.foldl_append]
    rfl

/-! ### The alphabet and the string (R60, R61, R204) -/

theorem indexOf_eq_none_iff {syms : List Byte} {c : Byte} : indexOf syms c = none ↔ c ∉ syms := by
  rw [indexOf, List.findIdx?_eq_none_iff]
  simp only [beq_eq_false_iff_ne]
  exact ⟨fun h hc => h c hc rfl, fun h x hx hxc => h (hxc ▸ hx)⟩

theorem mem_symbols_iff {s : State} {c : Byte} :
    c ∈ symbols s ↔ ∃ i, i < s.radix.toNat ∧ s.alpha[i]? = some c := by
  simp only [List.mem_iff_getElem?, symbols_getElem?, Option.ite_none_right_eq_some]

/-- In an alphabet without repetition a symbol is found where it stands (R204). -/
theorem indexOf_of_nodup {syms : List Byte} {c : Byte} {i : Nat} (hnodup : syms.Nodup)
    (hi : syms[i]? = some c) : indexOf syms c = some i := by
  obtain ⟨hlt, -⟩ := List.getElem?_eq_some_iff.1 hi
  refine indexOf_of_unique syms c i hi fun k hk => ?_
  rw [← hi]
  exact List.nodup_iff_getElem?_ne_getElem?.1 hnodup k i hk hlt

theorem codeString_getElem? (s : State) (j : Nat) :
    (codeString s)[j]? = if j < s.width.toNat then s.code[j]? else none := by
  rw [codeString, List.getElem?_take]
  simp

/-- The scan ends at the first symbol that stands nowhere in the alphabet (R205). -/
theorem parseFrom_of_first_unknown (radix : Nat) {syms code : List Byte} (j v : Nat) {k : Nat} {c : Byte}
    (hk : code[k]? = some c) (hc : c ∉ syms) (hbelow : ∀ m, m < k → ∀ b, code[m]? = some b → b ∈ syms) :
    parseFrom radix syms code j v = .err .invalidCharacter ((j + k) <<< 8 ||| c.toNat) := by
  rcases parseFrom_cases radix syms code j v with ⟨-, -, hall⟩ | ⟨k', c', hk', hc', hbelow', herr⟩
  · exact absurd (indexOf_eq_none_iff.2 hc) (hall c (List.mem_of_getElem? hk))
  · rcases Nat.lt_trichotomy k' k with hlt | rfl | hgt
    · exact absurd (hbelow k' hlt c' hk') (indexOf_eq_none_iff.1 hc')
    · rw [herr, Option.some.inj (hk'.symm.trans hk)]
    · exact absurd (indexOf_eq_none_iff.2 hc) (hbelow' k hgt c hk)

theorem fromStr_of_eq {radix width len : Nat} {syms code : List Byte} (h : len = width) :
    fromStr radix width syms len code = parseFrom radix syms code 0 0 := by
  rw [fromStr, if_neg (not_not.2 h)]

theorem fromStr_of_ne {radix width len : Nat} {syms code : List Byte} (h : len ≠ width) :
    fromStr radix width syms len code = .err .invalidLength len := by
  rw [fromStr, if_pos h]

/-- A string that spells digits over a valid alphabet is scanned to their value (R205). -/
theorem fromStr_of_spells {s : State} {d : Nat → Nat} (hcfg : CfgOK s) (hlen : s.codelen = s.width)
    (hd : Spells s d) :
    fromStr s.radix.toNat s.width.toNat (symbols s) s.codelen.toNat (codeString s) =
      .ok (digitsValue s.radix.toNat s.width.toNat d) := by
  have hnodup := (symbols_nodup_iff s).2 (hcfg 4 (by decide) (by decide))
  rw [fromStr_of_eq (congrArg _ hlen), ← digitsFold_range]
  refine parseFrom_of_digits _ _ _ _ _ _ (List.ext_getElem? fun j => ?_)
  rw [List.getElem?_map, codeString_getElem?]
  by_cases hj : j < s.width.toNat
  · obtain ⟨hdj, c, hcode, halpha⟩ := hd j hj
    have hsym : (symbols s)[d j]? = some c := by rw [symbols_getElem?, if_pos hdj, halpha]
    simp [hj, hcode, indexOf_of_nodup hnodup hsym]
  · simp [hj]

/-! ### TOSTR (R201, R203) -/

/-- `to_string(OPA)`, the string that TOSTR writes when it succeeds. -/
def rendered (s : State) : List Byte :=
  (List.range s.width.toNat).map fun j =>
    (symbols s).getD (digit s.radix.toNat s.width.toNat s.opa.toNat j) 0

theorem length_rendered (s : State) : (rendered s).length = s.width.toNat := by simp [rendered]

theorem digit_opa_lt {s : State} (hradix : CheckHolds 1 s) (j : Nat) :
    digit s.radix.toNat s.width.toNat s.opa.toNat j < s.radix.toNat :=
  digit_lt _ _ _ _ (Nat.zero_lt_of_lt hradix.1)

theorem rendered_getElem? {s : State} (hradix : CheckHolds 1 s) {j : Nat} (hj : j < s.width.toNat) :
    (rendered s)[j]? = s.alpha[digit s.radix.toNat s.width.toNat s.opa.toNat j]? := by
  have hdigit := digit_opa_lt hradix j
  rw [rendered, List.getElem?_map, List.getElem?_range hj, Option.map_some, List.getD_eq_getElem?_getD,
    symbols_getElem?, if_pos hdigit, Vector.getElem?_eq_getElem (hdigit.trans_le hradix.2), Option.getD_some]

/-- The entries that TOSTR writes, for a width that check 2 allows. -/
theorem storeSymbols_rendered_getElem? {s : State} (hradix : CheckHolds 1 s) (hwidth : CheckHolds 2 s) {j : Nat}
    (hj : j < s.width.toNat) : (storeSymbols (rendered s) 0 s.code)[j]? =
      s.alpha[digit s.radix.toNat s.width.toNat s.opa.toNat j]? := by
  rw [storeSymbols_getElem? _ _ _ _ (hj.trans_le hwidth.2), length_rendered, if_pos (by omega), Nat.sub_zero,
    rendered_getElem? hradix hj]

section

variable {s : State}

theorem exec_tostr_of_unconfigured (h : s.cfgv = false) :
    exec .tostr s = .next (raise s .notConfigured 0) := whenConfigured_of_false s _ h

theorem exec_tostr_of_configured (h : s.cfgv = true) :
    exec .tostr s = conclude s (toStr s.radix.toNat s.width.toNat (symbols s) s.opa.toNat) putString :=
  whenConfigured_of_true s _ h

theorem exec_tostr_of_lt (h : s.cfgv = true) (hlt : s.opa.toNat < s.radix.toNat ^ s.width.toNat) :
    exec .tostr s = .next (succeed (putString (rendered s) s)) := by
  rw [exec_tostr_of_configured h, toStr_of_lt _ _ _ _ hlt]
  rfl

end

/-- Settles O35: `toStr` answers by the range test, and its string is stored from entry 0 on. -/
theorem tostrRendersTheDigits : Obligations.TostrRendersTheDigits := by
  intro s
  refine ⟨exec_tostr_of_unconfigured, fun hcfgv hle => ?_, fun hcfgv hradix hwidth hlt => ?_⟩
  · rw [exec_tostr_of_configured hcfgv, toStr_of_le _ _ _ _ hle]
    exact conclude_err_toNat .overflow s.opa putString
  · refine ⟨storeSymbols (rendered s) 0 s.code, exec_tostr_of_lt hcfgv hlt, fun j hj => ?_, fun j hj => ?_⟩
    · exact storeSymbols_rendered_getElem? hradix hwidth hj
    · exact storeSymbols_getElem?_of_length_le (by rwa [length_rendered])

/-! ### FROMSTR (R205, R206) -/

section

variable {s : State}

theorem exec_fromstr_of_unconfigured (h : s.cfgv = false) :
    exec .fromstr s = .next (raise s .notConfigured 0) := whenConfigured_of_false s _ h

theorem exec_fromstr_of_configured (h : s.cfgv = true) :
    exec .fromstr s = conclude s
      (fromStr s.radix.toNat s.width.toNat (symbols s) s.codelen.toNat (codeString s)) putRes :=
  whenConfigured_of_true s _ h

theorem exec_fromstr_of_spells {d : Nat → Nat} (h : Configured s) (hlen : s.codelen = s.width)
    (hd : Spells s d) :
    exec .fromstr s = .next (succeed (putRes (digitsValue s.radix.toNat s.width.toNat d) s)) := by
  obtain ⟨hcfgv, hcfg⟩ := h
  rw [exec_fromstr_of_configured hcfgv, fromStr_of_spells hcfg hlen hd, conclude_ok]

end

/-- The detail of `InvalidCharacter` holds the position above the symbol's eight bits (R241). -/
theorem shiftLeft_or_byte (j : Nat) (b : Byte) : j <<< 8 ||| b.toNat = 256 * j + b.toNat := by
  rw [← Nat.shiftLeft_add_eq_or_of_lt b.isLt, Nat.shiftLeft_eq, Nat.mul_comm]

/-- Settles O36: the length test, then the scan, which stops at the first unknown symbol or accumulates the
value of the digits. -/
theorem fromstrParsesTheString : Obligations.FromstrParsesTheString := by
  intro s
  refine ⟨exec_fromstr_of_unconfigured, fun hcfgv hne => ?_,
    fun j b hcfgv _ hlen hj hb hunknown hbelow => ?_, fun d hcfg hlen hd => ?_⟩
  · rw [exec_fromstr_of_configured hcfgv, fromStr_of_ne fun h => hne (BitVec.eq_of_toNat_eq h)]
    exact conclude_err_toNat .invalidLength s.codelen putRes
  · have hcode : (codeString s)[j]? = some b := by rw [codeString_getElem?, if_pos hj, hb]
    have hnotin : b ∉ symbols s := fun hin => by
      obtain ⟨i, hi, halpha⟩ := mem_symbols_iff.1 hin
      exact hunknown i hi halpha
    have hin (m : Nat) (hm : m < j) (c : Byte) (hc : (codeString s)[m]? = some c) : c ∈ symbols s := by
      obtain ⟨i, hi, halpha⟩ := hbelow m hm
      rw [codeString_getElem?, if_pos (hm.trans hj)] at hc
      exact mem_symbols_iff.2 ⟨i, hi, halpha.trans hc⟩
    rw [exec_fromstr_of_configured hcfgv, fromStr_of_eq (congrArg _ hlen),
      parseFrom_of_first_unknown _ _ _ hcode hnotin hin, Nat.zero_add, shiftLeft_or_byte]
    rfl
  · exact ⟨digitsValue_lt fun j hj => (hd j hj).1, exec_fromstr_of_spells hcfg hlen hd⟩

/-! ### TOSTR and FROMSTR are inverse (R207) -/

/-- The state after the command `i` is accepted and ends with the string `out` (R111, R246). -/
def printed (i : Instr) (out : List Byte) (s : State) : State :=
  succeed (putString out (acceptCommand s (encode i)))

section

variable {s : State}

theorem runs_tostr (hcfgv : s.cfgv = true) (hlt : s.opa.toNat < s.radix.toNat ^ s.width.toNat) :
    Runs .tostr s (printed .tostr (rendered s) s) :=
  exec_tostr_of_lt (s := acceptCommand s (encode .tostr)) hcfgv hlt

theorem runs_fromstr {d : Nat → Nat} (h : Configured s) (hlen : s.codelen = s.width) (hd : Spells s d) :
    Runs .fromstr s (finished .fromstr (digitsValue s.radix.toNat s.width.toNat d) s) :=
  exec_fromstr_of_spells (s := acceptCommand s (encode .fromstr)) h hlen hd

/-- The string that TOSTR leaves spells the digits of `OPA`. -/
theorem spells_printed_rendered (i : Instr) (hradix : CheckHolds 1 s) (hwidth : CheckHolds 2 s) :
    Spells (printed i (rendered s) s) (digit s.radix.toNat s.width.toNat s.opa.toNat) := by
  intro j hj
  have hdigit := digit_opa_lt hradix j
  have halpha := Vector.getElem?_eq_getElem (xs := s.alpha) (hdigit.trans_le hradix.2)
  exact ⟨hdigit, _, (storeSymbols_rendered_getElem? hradix hwidth hj).trans halpha, halpha⟩

/-- A string of alphabet symbols spells some digits. -/
theorem exists_spells (hwidth : CheckHolds 2 s)
    (h : ∀ j, j < s.width.toNat → ∃ i, i < s.radix.toNat ∧ s.alpha[i]? = s.code[j]?) : ∃ d, Spells s d := by
  choose! d hd using h
  refine ⟨d, fun j hj => ?_⟩
  obtain ⟨hlt, halpha⟩ := hd j hj
  have hcode := Vector.getElem?_eq_getElem (xs := s.code) (hj.trans_le hwidth.2)
  exact ⟨hlt, _, hcode, halpha.trans hcode⟩

/-- Rendering the value of the digits that the buffer spells stores what stands there. -/
theorem storeSymbols_rendered_of_spells {d : Nat → Nat} (hradix : CheckHolds 1 s) (hwidth : CheckHolds 2 s)
    (hd : Spells s d) (hopa : s.opa.toNat = digitsValue s.radix.toNat s.width.toNat d) :
    storeSymbols (rendered s) 0 s.code = s.code := by
  refine Vector.toArray_inj.1 (Array.ext_getElem? fun j => ?_)
  rw [Vector.getElem?_toArray, Vector.getElem?_toArray]
  rcases Nat.lt_or_ge j s.width.toNat with hj | hj
  · obtain ⟨-, c, hcode, halpha⟩ := hd j hj
    rw [storeSymbols_rendered_getElem? hradix hwidth hj, hopa, digit_digitsValue (fun k hk => (hd k hk).1) hj,
      halpha, hcode]
  · exact storeSymbols_getElem?_of_length_le (by rwa [length_rendered])

end

/-- Settles O46: FROMSTR finds the digits of `OPA` spelled in the buffer, and their value is `OPA`. -/
theorem fromstrInvertsTostr : Obligations.FromstrInvertsTostr := by
  rintro s ⟨hcfgv, hcfg⟩ hlt
  obtain ⟨hradix, hwidth, -⟩ := (cfgOK_iff s).1 hcfg
  have hspells := spells_printed_rendered .tostr hradix hwidth
  refine ⟨_, _, runs_tostr hcfgv hlt, runs_fromstr ⟨hcfgv, hcfg⟩ rfl hspells, ?_, rfl, rfl⟩
  exact (congrArg Word.ofNat (digitsValue_digit hlt)).trans (word_ofNat_toNat s.opa)

/-- Settles O47: TOSTR finds in `OPA` the value of the digits that the buffer spells, and stores the same
symbols again. -/
theorem tostrInvertsFromstr : Obligations.TostrInvertsFromstr := by
  rintro s ⟨hcfgv, hcfg⟩ hlen hsyms
  obtain ⟨hradix, hwidth, hrange, -⟩ := (cfgOK_iff s).1 hcfg
  obtain ⟨d, hd⟩ := exists_spells hwidth hsyms
  have hbound := digitsValue_lt fun j hj => (hd j hj).1
  have hres := finished_res_toNat .fromstr s (hbound.trans_le hrange)
  have hlt := hres.trans_lt hbound
  refine ⟨_, _, runs_fromstr ⟨hcfgv, hcfg⟩ hlen hd, rfl, hlt, runs_tostr ?_ hlt, rfl, ?_, hlen.symm⟩
  · exact hcfgv
  · exact storeSymbols_rendered_of_spells hradix hwidth hd hres

end Sys2Proof.Machine

/-! ## ENCODE and DECODE (44_encode_decode.md) -/

/-! ### ENCODE (R220 to R223) -/

namespace Sys2Proof.Machine

open Sys2Proof.Safety

@[simp] theorem chain_ok {α β : Type} (x : α) (f : α → Answer β) : chain (.ok x) f = f x := rfl

@[simp] theorem chain_err {α β : Type} (k : ErrorKind) (info : Nat) (f : α → Answer β) :
    chain (.err k info) f = .err k info := rfl

/-- `scramble(OPA)`, the number whose digits ENCODE writes. -/
def scrambledValue (s : State) : Nat := s.g.toNat ^ (s.opa.toNat + 1) % s.p.toNat

/-- The state with the scrambled value in `OPA`: ENCODE writes the string that TOSTR writes there (R220). -/
def scrambledOpa (s : State) : State := { s with opa := Word.ofNat (scrambledValue s) }

section

variable {s : State}

theorem scrambledValue_lt (hcfg : CfgOK s) : scrambledValue s < s.p.toNat := by
  obtain ⟨hprime, -⟩ := isPrimitiveRoot_of_cfgOK hcfg
  exact Nat.mod_lt _ hprime.out.pos

/-- Check 8: the scrambled value has `WIDTH` digits, so ENCODE cannot overflow (R222). -/
theorem scrambledValue_lt_pow (hcfg : CfgOK s) : scrambledValue s < s.radix.toNat ^ s.width.toNat :=
  (scrambledValue_lt hcfg).trans_le (hcfg 8 (by decide) (by decide))

theorem scrambledOpa_opa_toNat (hcfg : CfgOK s) : (scrambledOpa s).opa.toNat = scrambledValue s :=
  Nat.mod_eq_of_lt ((scrambledValue_lt hcfg).trans s.p.isLt)

theorem scramble_opa (hlt : s.opa.toNat < s.p.toNat - 1) :
    scramble s.p.toNat s.g.toNat s.opa.toNat = .ok (scrambledValue s) := scramble_of_lt _ _ _ hlt s.p.isLt

theorem encodeCounter_of_le {p g radix width c : Nat} {syms : List Byte} (h : p - 1 ≤ c) :
    encodeCounter p g radix width syms c = .err .outOfRange c := by
  rw [encodeCounter, scramble_of_le _ _ _ h, chain_err]

theorem encodeCounter_of_lt (hcfg : CfgOK s) (hlt : s.opa.toNat < s.p.toNat - 1) :
    encodeCounter s.p.toNat s.g.toNat s.radix.toNat s.width.toNat (symbols s) s.opa.toNat =
      .ok (rendered (scrambledOpa s)) := by
  rw [encodeCounter, scramble_opa hlt, chain_ok, toStr_of_lt _ _ _ _ (scrambledValue_lt_pow hcfg), rendered,
    scrambledOpa_opa_toNat hcfg]
  rfl

theorem exec_encode_of_unconfigured (h : s.cfgv = false) :
    exec .encode s = .next (raise s .notConfigured 0) := whenConfigured_of_false s _ h

theorem exec_encode_of_configured (h : s.cfgv = true) :
    exec .encode s = conclude s
      (encodeCounter s.p.toNat s.g.toNat s.radix.toNat s.width.toNat (symbols s) s.opa.toNat) putString :=
  whenConfigured_of_true s _ h

theorem exec_encode_of_lt (h : Configured s) (hlt : s.opa.toNat < s.p.toNat - 1) :
    exec .encode s = .next (succeed (putString (rendered (scrambledOpa s)) s)) := by
  obtain ⟨hcfgv, hcfg⟩ := h
  rw [exec_encode_of_configured hcfgv, encodeCounter_of_lt hcfg hlt, conclude_ok]

/-- The entries that ENCODE writes. -/
theorem storeSymbols_scrambled_getElem? (hcfg : CfgOK s) {j : Nat} (hj : j < s.width.toNat) :
    (storeSymbols (rendered (scrambledOpa s)) 0 s.code)[j]? =
      s.alpha[digit s.radix.toNat s.width.toNat (scrambledValue s) j]? := by
  obtain ⟨hradix, hwidth, -⟩ := (cfgOK_iff s).1 hcfg
  rw [← scrambledOpa_opa_toNat hcfg]
  exact storeSymbols_rendered_getElem? (s := scrambledOpa s) hradix hwidth hj

end

/-- Settles O37: `scramble` answers by the range test, and a scrambled value always has a string. -/
theorem encodeRendersTheScrambledValue : Obligations.EncodeRendersTheScrambledValue := by
  intro s
  refine ⟨exec_encode_of_unconfigured, fun hcfgv hle => ?_, fun h hlt => ?_⟩
  · rw [exec_encode_of_configured hcfgv, encodeCounter_of_le hle]
    exact conclude_err_toNat .outOfRange s.opa putString
  · obtain ⟨hradix, -⟩ := (cfgOK_iff s).1 h.2
    refine ⟨storeSymbols (rendered (scrambledOpa s)) 0 s.code, exec_encode_of_lt h hlt, fun j hj => ?_,
      fun j hj => ?_⟩
    · have hentry := storeSymbols_scrambled_getElem? h.2 hj
      exact ⟨hentry, _, digit_lt _ _ _ _ (Nat.zero_lt_of_lt hradix.1), hentry⟩
    · exact storeSymbols_getElem?_of_length_le (by rwa [length_rendered])

/-! ### DECODE (R224) -/

section

variable {s : State}

/-- A string of the right length is refused at its first symbol that stands nowhere in the alphabet (R205). -/
theorem fromStr_of_first_unknown {j : Nat} {b : Byte} (hlen : s.codelen = s.width) (hj : j < s.width.toNat)
    (hb : s.code[j]? = some b) (hunknown : ∀ i, i < s.radix.toNat → s.alpha[i]? ≠ some b)
    (hbelow : ∀ k, k < j → ∃ i, i < s.radix.toNat ∧ s.alpha[i]? = s.code[k]?) :
    fromStr s.radix.toNat s.width.toNat (symbols s) s.codelen.toNat (codeString s) =
      .err .invalidCharacter (256 * j + b.toNat) := by
  have hcode : (codeString s)[j]? = some b := by rw [codeString_getElem?, if_pos hj, hb]
  have hnotin : b ∉ symbols s := fun hin => by
    obtain ⟨i, hi, halpha⟩ := mem_symbols_iff.1 hin
    exact hunknown i hi halpha
  have hin (k : Nat) (hk : k < j) (c : Byte) (hc : (codeString s)[k]? = some c) : c ∈ symbols s := by
    obtain ⟨i, hi, halpha⟩ := hbelow k hk
    rw [codeString_getElem?, if_pos (hk.trans hj)] at hc
    exact mem_symbols_iff.2 ⟨i, hi, halpha.trans hc⟩
  rw [fromStr_of_eq (congrArg _ hlen), parseFrom_of_first_unknown _ _ _ hcode hnotin hin, Nat.zero_add,
    shiftLeft_or_byte]

theorem exec_decode_of_unconfigured (h : s.cfgv = false) :
    exec .decode s = .next (raise s .notConfigured 0) := whenConfigured_of_false s _ h

theorem exec_decode_of_configured (h : s.cfgv = true) :
    exec .decode s = conclude s (chain
      (fromStr s.radix.toNat s.width.toNat (symbols s) s.codelen.toNat (codeString s))
      (unscramble s.p.toNat s.g.toNat)) putRes :=
  whenConfigured_of_true s _ h

/-- Once the string is parsed, DECODE answers as `unscramble` does. -/
theorem exec_decode_of_spells {d : Nat → Nat} (h : Configured s) (hlen : s.codelen = s.width)
    (hd : Spells s d) :
    exec .decode s = conclude s
      (unscramble s.p.toNat s.g.toNat (digitsValue s.radix.toNat s.width.toNat d)) putRes := by
  obtain ⟨hcfgv, hcfg⟩ := h
  rw [exec_decode_of_configured hcfgv, fromStr_of_spells hcfg hlen hd, chain_ok]

/-- DECODE finds the counter whose scrambled value the string spells. -/
theorem exec_decode_of_scrambled {d : Nat → Nat} {c : Nat} (h : Configured s) (hlen : s.codelen = s.width)
    (hd : Spells s d) (hc : c < s.p.toNat - 1)
    (hcv : s.g.toNat ^ (c + 1) % s.p.toNat = digitsValue s.radix.toNat s.width.toNat d) :
    exec .decode s = .next (succeed (putRes c s)) := by
  obtain ⟨hprime, hroot⟩ := isPrimitiveRoot_of_cfgOK h.2
  rw [exec_decode_of_spells h hlen hd, ← hcv, unscramble_scrambled hroot hc, conclude_ok]

end

/-- Settles O38: `fromStr` answers first, and a parsed number is unscrambled. -/
theorem decodeRecoversTheCounter : Obligations.DecodeRecoversTheCounter := by
  intro s
  refine ⟨exec_decode_of_unconfigured, fun hcfgv hne => ?_, fun j b hcfgv _ hlen hj hb hunknown hbelow => ?_,
    fun d h hlen hd hbounds => ?_, fun d h hlen hd hpos hlt => ?_⟩
  · rw [exec_decode_of_configured hcfgv, fromStr_of_ne fun h => hne (BitVec.eq_of_toNat_eq h), chain_err]
    exact conclude_err_toNat .invalidLength s.codelen putRes
  · rw [exec_decode_of_configured hcfgv, fromStr_of_first_unknown hlen hj hb hunknown hbelow, chain_err]
    rfl
  · rw [exec_decode_of_spells h hlen hd, unscramble_of_out_of_bounds _ _ _ hbounds]
    rfl
  · obtain ⟨hprime, hroot⟩ := isPrimitiveRoot_of_cfgOK h.2
    obtain ⟨c, hc, hcv⟩ := exists_scrambled_eq hroot hpos (Nat.le_sub_one_of_lt hlt)
    exact ⟨c, hc, hcv, exec_decode_of_scrambled h hlen hd hc hcv⟩

/-! ### ENCODE and DECODE are inverse (R225) -/

/-- The state after ENCODE is accepted and succeeds. -/
def encoded (s : State) : State := printed .encode (rendered (scrambledOpa s)) s

section

variable {s : State}

theorem runs_encode (h : Configured s) (hlt : s.opa.toNat < s.p.toNat - 1) : Runs .encode s (encoded s) :=
  exec_encode_of_lt (s := acceptCommand s (encode .encode)) h hlt

theorem runs_decode {d : Nat → Nat} {c : Nat} (h : Configured s) (hlen : s.codelen = s.width)
    (hd : Spells s d) (hc : c < s.p.toNat - 1)
    (hcv : s.g.toNat ^ (c + 1) % s.p.toNat = digitsValue s.radix.toNat s.width.toNat d) :
    Runs .decode s (finished .decode c s) :=
  exec_decode_of_scrambled (s := acceptCommand s (encode .decode)) h hlen hd hc hcv

/-- The string that ENCODE leaves spells the digits of the scrambled value. -/
theorem spells_encoded (hcfg : CfgOK s) :
    Spells (encoded s) (digit s.radix.toNat s.width.toNat (scrambledValue s)) := by
  obtain ⟨hradix, hwidth, -⟩ := (cfgOK_iff s).1 hcfg
  rw [← scrambledOpa_opa_toNat hcfg]
  exact spells_printed_rendered (s := scrambledOpa s) .encode hradix hwidth

/-- Where the buffer spells the scrambled value, ENCODE stores what stands there. -/
theorem encoded_code_of_spells {d : Nat → Nat} (hcfg : CfgOK s) (hd : Spells s d)
    (hvalue : scrambledValue s = digitsValue s.radix.toNat s.width.toNat d) : (encoded s).code = s.code := by
  obtain ⟨hradix, hwidth, -⟩ := (cfgOK_iff s).1 hcfg
  exact storeSymbols_rendered_of_spells (s := scrambledOpa s) hradix hwidth hd
    ((scrambledOpa_opa_toNat hcfg).trans hvalue)

end

/-- Settles O48: DECODE finds the scrambled value of the counter spelled in the buffer, and ENCODE finds in
`OPA` the counter of the value that the buffer spells. -/
theorem encodeAndDecodeAreInverse : Obligations.EncodeAndDecodeAreInverse := by
  constructor
  · intro s h hlt
    have hvalue := digitsValue_digit (scrambledValue_lt_pow h.2)
    exact ⟨_, _, runs_encode h hlt, runs_decode h rfl (spells_encoded h.2) hlt hvalue.symm,
      finished_res_of_toNat _ _ _, rfl, rfl⟩
  · intro s d h hlen hd hpos hlt
    obtain ⟨hprime, hroot⟩ := isPrimitiveRoot_of_cfgOK h.2
    obtain ⟨c, hc, hcv⟩ := exists_scrambled_eq hroot hpos (Nat.le_sub_one_of_lt hlt)
    have hres : (finished .decode c s).res.toNat = c :=
      finished_res_toNat .decode s (hc.trans_le ((Nat.sub_le _ _).trans s.p.isLt.le))
    refine ⟨_, _, runs_decode h hlen hd hc hcv, runs_encode h (hres.trans_lt hc),
      encoded_code_of_spells h.2 hd ?_, hlen.symm, rfl, rfl⟩
    exact (congrArg (fun k => s.g.toNat ^ (k + 1) % s.p.toNat) hres).trans hcv

/-! ### Distinct counters get distinct strings (R226) -/

/-- A string over a valid alphabet spells one number only. -/
theorem digitsValue_eq_of_spells {s : State} {d e : Nat → Nat} (hcfg : CfgOK s) (hlen : s.codelen = s.width)
    (hd : Spells s d) (he : Spells s e) :
    digitsValue s.radix.toNat s.width.toNat d = digitsValue s.radix.toNat s.width.toNat e :=
  Answer.ok.inj ((fromStr_of_spells hcfg hlen hd).symm.trans (fromStr_of_spells hcfg hlen he))

/-- Settles O49: equal strings spell equal numbers, and these have one counter. -/
theorem distinctCountersGetDistinctStrings : Obligations.DistinctCountersGetDistinctStrings := by
  intro s x y h hx hy hne
  have hcfg (v : Word) : CfgOK { s with opa := v } := h.2
  refine ⟨_, _, runs_encode (s := { s with opa := x }) h hx, runs_encode (s := { s with opa := y }) h hy, ?_⟩
  by_contra! hsame
  have hspellsy : Spells (encoded { s with opa := x })
      (digit s.radix.toNat s.width.toNat (scrambledValue { s with opa := y })) := by
    intro j hj
    rw [hsame j hj]
    exact spells_encoded (hcfg y) j hj
  have hdigits := digitsValue_eq_of_spells (s := encoded { s with opa := x }) h.2 rfl (spells_encoded (hcfg x)) hspellsy
  have hvalues : scrambledValue { s with opa := x } = scrambledValue { s with opa := y } :=
    calc scrambledValue { s with opa := x }
        = digitsValue s.radix.toNat s.width.toNat _ := (digitsValue_digit (scrambledValue_lt_pow (hcfg x))).symm
      _ = digitsValue s.radix.toNat s.width.toNat _ := hdigits
      _ = scrambledValue { s with opa := y } := digitsValue_digit (scrambledValue_lt_pow (hcfg y))
  obtain ⟨hprime, hroot⟩ := isPrimitiveRoot_of_cfgOK h.2
  exact hne (BitVec.eq_of_toNat_eq (scrambled_injective hroot hx hy hvalues))

end Sys2Proof.Machine

/-! ## Errors (60_exceptions.md) -/

/-! ### The errors each unit can raise (R240, R241, R242) -/

namespace Sys2Proof.Machine

open Sys2Proof.Safety

/-- What `ERRINFO` may hold beside an error of each kind in `s` (R241). -/
def DetailFits (s : State) : ErrorKind → Word → Prop
  | .invalidCharacter, info => info.toNat < 32 * 256
  | .configInvalid, info => 1 ≤ info.toNat ∧ info.toNat ≤ 8
  | .notConfigured, info => info = 0#32
  | .illegalCommand, info => info = s.cmdw
  | .badOperand, info => info = 0#32
  | .notInvertible, info => 2 ≤ info.toNat
  | .outOfRange, _ => True
  | .invalidLength, _ => True
  | .invalidCode, _ => True
  | .overflow, _ => True

/-- The command `i` may end in `s` with `k(info)`: the kind is in its row of R242, the detail in the kind's row
of R241. -/
structure MayRaise (i : Instr) (s : State) (k : ErrorKind) (info : Nat) : Prop where
  code : kindCode k ∈ errorCodes i
  detail : DetailFits s k (Word.ofNat info)

theorem err_of_chain {α β : Type} {a : Answer α} {f : α → Answer β} {k : ErrorKind} {info : Nat}
    (h : chain a f = .err k info) : a = .err k info ∨ ∃ x, f x = .err k info := by
  cases a with
  | ok x => exact .inr ⟨x, h⟩
  | err k' info' =>
    cases h
    exact .inl rfl

section

variable {i : Instr} {s : State} {k : ErrorKind} {info : Nat}

theorem mayRaise_of_scramble {p g c : Nat} (hcode : 1#8 ∈ errorCodes i) (h : scramble p g c = .err k info) :
    MayRaise i s k info := by
  unfold scramble at h
  split at h <;> cases h
  exact ⟨hcode, trivial⟩

theorem mayRaise_of_unscramble {p g v : Nat} (hcode : 4#8 ∈ errorCodes i) (h : unscramble p g v = .err k info) :
    MayRaise i s k info := by
  rcases unscramble_cases p g v with ⟨c, hok, -⟩ | herr
  · rw [hok] at h
    cases h
  · rw [herr] at h
    cases h
    exact ⟨hcode, trivial⟩

theorem mayRaise_of_toStr {radix width x : Nat} {syms : List Byte} (hcode : 5#8 ∈ errorCodes i)
    (h : toStr radix width syms x = .err k info) : MayRaise i s k info := by
  unfold toStr at h
  split at h <;> cases h
  exact ⟨hcode, trivial⟩

/-- The offending symbol stands at one of the 32 entries of `CODE[]`, so its position takes five bits above the
symbol's eight (R205, R241). -/
theorem mayRaise_of_parseFrom (hcode : 3#8 ∈ errorCodes i)
    (h : parseFrom s.radix.toNat (symbols s) (codeString s) 0 0 = .err k info) : MayRaise i s k info := by
  rcases parseFrom_cases s.radix.toNat (symbols s) (codeString s) 0 0 with ⟨w, hok, -⟩ | ⟨j, b, hj, -, -, herr⟩
  · rw [hok] at h
    cases h
  · rw [herr, Nat.zero_add, shiftLeft_or_byte] at h
    cases h
    have hlength : j < (codeString s).length := (List.getElem?_eq_some_iff.1 hj).1
    have hpos : j < 32 := lt_of_lt_of_le hlength (by simp [codeString])
    have hbyte : b.toNat < 256 := b.isLt
    refine ⟨hcode, lt_of_le_of_lt (Nat.mod_le _ _) ?_⟩
    omega

theorem mayRaise_of_fromStr {width len : Nat} (hlength : 2#8 ∈ errorCodes i) (hcharacter : 3#8 ∈ errorCodes i)
    (h : fromStr s.radix.toNat width (symbols s) len (codeString s) = .err k info) : MayRaise i s k info := by
  unfold fromStr at h
  split at h
  · cases h
    exact ⟨hlength, trivial⟩
  · exact mayRaise_of_parseFrom hcharacter h

theorem mayRaise_of_modexpAnswer {b e m : Nat} (hcode : 9#8 ∈ errorCodes i)
    (h : modexpAnswer b e m = .err k info) : MayRaise i s k info := by
  unfold modexpAnswer at h
  split at h <;> cases h
  exact ⟨hcode, rfl⟩

/-- The gcd in the detail is not 1, not 0 because the modulus is not, and below `2 ^ 32` because it divides the
modulus (R165, R241). -/
theorem mayRaise_of_modinv {a : Nat} {m : Word} (hm : m ≠ 0#32) (hcode : 10#8 ∈ errorCodes i)
    (h : modinv a m.toNat = .err k info) : MayRaise i s k info := by
  have hpos : 0 < m.toNat := BitVec.toNat_pos_of_ne_zero hm
  by_cases hgcd : Nat.gcd (a % m.toNat) m.toNat = 1
  · obtain ⟨x, hok, -⟩ := modinv_of_gcd_eq_one a m.toNat hpos hgcd
    rw [hok] at h
    cases h
  · rw [modinv_of_gcd_ne_one a m.toNat hgcd] at h
    cases h
    have hgcd_pos : 0 < Nat.gcd (a % m.toNat) m.toNat := Nat.gcd_pos_of_pos_right _ hpos
    have hgcd_lt : Nat.gcd (a % m.toNat) m.toNat < 2 ^ 32 :=
      lt_of_le_of_lt (Nat.gcd_le_right _ hpos) m.isLt
    have hword : (Word.ofNat (Nat.gcd (a % m.toNat) m.toNat)).toNat = Nat.gcd (a % m.toNat) m.toNat :=
      Nat.mod_eq_of_lt hgcd_lt
    refine ⟨hcode, ?_⟩
    rw [DetailFits, hword]
    omega

theorem mayRaise_of_modinvAnswer {a : Nat} {m : Word} (hbad : 9#8 ∈ errorCodes i) (hcode : 10#8 ∈ errorCodes i)
    (h : modinvAnswer a m.toNat = .err k info) : MayRaise i s k info := by
  unfold modinvAnswer at h
  split at h
  case isTrue =>
    cases h
    exact ⟨hbad, rfl⟩
  case isFalse hm => exact mayRaise_of_modinv (fun hzero => hm (by rw [hzero]; rfl)) hcode h

theorem mayRaise_of_firstFailing (hk : FirstFailing info s) : MayRaise .validate s .configInvalid info := by
  obtain ⟨hlow, hhigh, -⟩ := hk
  have hword : (Word.ofNat info).toNat = info := Nat.mod_eq_of_lt (by omega)
  exact ⟨by decide, by rw [DetailFits, hword]; exact ⟨hlow, hhigh⟩⟩

end

end Sys2Proof.Machine

/-! ### The error record that a command leaves (R246, R247) -/

namespace Sys2Proof.Machine

open Sys2Proof.Safety

/-- What an error of the command `i` leaves in `CFGV`: VALIDATE clears it (R143, R247). -/
def cfgvOnError (i : Instr) (s : State) : Bool := if i = .validate then false else s.cfgv

/-- How the command `i` can leave `ERR` of `s`: a success keeps it, and an error is one of the command's own and
writes the record, with `CFGV` for VALIDATE, and nothing else. -/
inductive RecordEnd (i : Instr) (s : State) : State → Prop where
  | success {t : State} (herr : t.err = s.err) : RecordEnd i s t
  | error (k : ErrorKind) (info : Nat) (hraise : MayRaise i s k info) :
      RecordEnd i s (raise (putCfgv (cfgvOnError i s) s) k info)

section

variable {i : Instr} {s t : State}

theorem recordEnd_of_raise {k : ErrorKind} {info : Nat} (hi : i ≠ .validate) (hraise : MayRaise i s k info) :
    RecordEnd i s (raise s k info) := by
  have hkeep : raise s k info = raise (putCfgv (cfgvOnError i s) s) k info := by
    rw [cfgvOnError, if_neg hi]
    rfl
  rw [hkeep]
  exact .error k info hraise

theorem recordEnd_of_conclude {α : Type} {a : Answer α} {put : α → State → State} (hi : i ≠ .validate)
    (hput : ∀ x, (put x s).err = s.err)
    (hraise : ∀ k info, a = .err k info → MayRaise i s k info) (h : conclude s a put = .next t) :
    RecordEnd i s t := by
  rcases (conclude_eq_next s t a put).1 h with ⟨x, -, rfl⟩ | ⟨k, info, ha, rfl⟩
  · exact .success (hput x)
  · exact recordEnd_of_raise hi (hraise k info ha)

theorem recordEnd_of_whenConfigured {body : StepResult} (hi : i ≠ .validate) (hcode : 7#8 ∈ errorCodes i)
    (hbody : body = .next t → RecordEnd i s t) (h : whenConfigured s body = .next t) : RecordEnd i s t := by
  rcases (whenConfigured_eq_next s t body).1 h with ⟨-, ht⟩ | ⟨-, rfl⟩
  · exact hbody ht
  · exact recordEnd_of_raise hi ⟨hcode, rfl⟩

theorem recordEnd_of_execValidate (h : execValidate s = .next t) : RecordEnd .validate s t := by
  unfold execValidate at h
  split at h <;> cases h
  case h_1 => exact .success rfl
  case h_2 k hfound =>
    exact .error .configInvalid k (mayRaise_of_firstFailing (firstFailing_of_firstFailingCheck hfound))

/-- Every command leaves `ERR` as `RecordEnd` lists. -/
theorem recordEnd_of_exec (h : exec i s = .next t) : RecordEnd i s t := by
  have hres (n : Nat) : (putRes n s).err = s.err := rfl
  have hstring (out : List Byte) : (putString out s).err = s.err := rfl
  cases i with
  | nop =>
    cases h
    exact .success rfl
  | validate => exact recordEnd_of_execValidate h
  | modexp => exact recordEnd_of_conclude nofun hres (fun _ _ => mayRaise_of_modexpAnswer (by decide)) h
  | modinv =>
    exact recordEnd_of_conclude nofun hres (fun _ _ => mayRaise_of_modinvAnswer (by decide) (by decide)) h
  | scramble =>
    refine recordEnd_of_whenConfigured nofun (by decide) (recordEnd_of_conclude nofun hres fun _ _ => ?_) h
    exact mayRaise_of_scramble (by decide)
  | unscramble =>
    refine recordEnd_of_whenConfigured nofun (by decide) (recordEnd_of_conclude nofun hres fun _ _ => ?_) h
    exact mayRaise_of_unscramble (by decide)
  | tostr =>
    refine recordEnd_of_whenConfigured nofun (by decide) (recordEnd_of_conclude nofun hstring fun _ _ => ?_) h
    exact mayRaise_of_toStr (by decide)
  | fromstr =>
    refine recordEnd_of_whenConfigured nofun (by decide) (recordEnd_of_conclude nofun hres fun _ _ => ?_) h
    exact mayRaise_of_fromStr (by decide) (by decide)
  | encode =>
    refine recordEnd_of_whenConfigured nofun (by decide)
      (recordEnd_of_conclude nofun hstring fun _ _ hencode => ?_) h
    rcases err_of_chain hencode with hscramble | ⟨x, htoStr⟩
    · exact mayRaise_of_scramble (by decide) hscramble
    · exact mayRaise_of_toStr (by decide) htoStr
  | decode =>
    refine recordEnd_of_whenConfigured nofun (by decide)
      (recordEnd_of_conclude nofun hres fun _ _ hdecode => ?_) h
    rcases err_of_chain hdecode with hfromStr | ⟨x, hunscramble⟩
    · exact mayRaise_of_fromStr (by decide) (by decide) hfromStr
    · exact mayRaise_of_unscramble (by decide) hunscramble

end

/-- Settles O42: an accepted command starts with `ERR = 0`, which a success keeps, and an error is of its row. -/
theorem commandsRaiseOnlyTheirErrors : Obligations.CommandsRaiseOnlyTheirErrors := by
  intro i s t h
  cases recordEnd_of_exec h with
  | success herr => exact .inl herr
  | error k info hraise => exact .inr hraise.code

/-- Settles O41: a command that ends with `ERR` not 0 has raised, on the state that acceptance left. -/
theorem anErrorWritesOnlyItsRecord : Obligations.AnErrorWritesOnlyItsRecord := by
  intro i s t h hne
  cases recordEnd_of_exec h with
  | success herr => exact absurd herr hne
  | error k info _ =>
    obtain ⟨-, -, hopcode⟩ := encodingShape i
    simp [raise, putCfgv, acceptCommand, cfgvOnError, hopcode]

end Sys2Proof.Machine

/-! ### Every step keeps the error detail (R241) -/

namespace Sys2Proof.Machine

open Sys2Proof.Safety

/-- `t` has the sequencer, the command word and the error record of `s`. -/
def SameRecord (s t : State) : Prop :=
  t = { t with busy := s.busy, cmdw := s.cmdw, err := s.err, errinfo := s.errinfo }

theorem SameRecord.err_eq {s t : State} (h : SameRecord s t) : t.err = s.err := by rw [h]

theorem SameRecord.errinfo_eq {s t : State} (h : SameRecord s t) : t.errinfo = s.errinfo := by rw [h]

/-- A host write accepts a command, or leaves the error record alone (R50, R83). -/
theorem accepted_or_sameRecord_of_writeReg (s : State) (r : Reg) (v : Word) :
    (s.busy = false ∧ writeReg s r v = acceptCommand s v) ∨ SameRecord s (writeReg s r v) := by
  rcases writeReg_cases s r v with ⟨-, h⟩ | ⟨hc, h⟩ | ⟨-, -, h⟩ | ⟨-, hb, h⟩ <;> rw [h]
  · exact .inr rfl
  · rcases ctrl_or_status_of_always hc with rfl | rfl <;> exact .inr rfl
  · exact .inr rfl
  · cases r with
    | cmd => exact .inl ⟨hb, rfl⟩
    | _ => exact .inr rfl

/-- Settles O15: a completion and an acceptance change `BUSY`, and no other step but a reset writes the record. -/
theorem errorRecordStaysUntilTheNextCommand : Obligations.ErrorRecordStaysUntilTheNextCommand := by
  intro s t hbusy hnoreset h
  cases stepEvent_of_step h with
  | completion rest hrunning _ hend =>
    obtain ⟨hidle, -, -⟩ := flags_of_complete hend
    simp [hrunning, hidle] at hbusy
  | quiet later words => exact ⟨rfl, rfl⟩
  | write r v rest _ =>
    rcases accepted_or_sameRecord_of_writeReg (setAgenda s rest) r v with ⟨hidle, haccept⟩ | hsame
    · rw [haccept] at hbusy
      exact absurd (hbusy.symm.trans hidle) (by simp)
    · exact ⟨hsame.err_eq, hsame.errinfo_eq⟩
  | reset rest hhead => exact absurd hhead (hnoreset rest)

theorem kindCode_injective : Function.Injective kindCode := by
  intro k l h
  cases k <;> cases l <;> simp [kindCode] at h ⊢

theorem DetailFits.of_kindCode_eq {s : State} {k l : ErrorKind} {info : Word} (h : DetailFits s k info)
    (hcode : kindCode k = kindCode l) : DetailFits s l info := kindCode_injective hcode ▸ h

section

variable {s t : State}

theorem errorDetail_of_sameRecord (h : ErrorDetail s) (hsame : SameRecord s t) : ErrorDetail t := by
  rw [hsame]
  exact ⟨h.running, h.invalidCharacter, h.configInvalid, h.notConfigured, h.illegalCommand, h.badOperand,
    h.notInvertible⟩

/-- Without an error there is nothing to say of the detail. -/
theorem errorDetail_of_err_eq_zero (h : s.err = 0#8) : ErrorDetail s := by
  constructor <;> simp [h]

theorem errorDetail_raise {k : ErrorKind} {info : Nat} (h : DetailFits s k (Word.ofNat info)) :
    ErrorDetail (raise s k info) where
  running := nofun
  invalidCharacter := h.of_kindCode_eq (l := .invalidCharacter)
  configInvalid := h.of_kindCode_eq (l := .configInvalid)
  notConfigured := h.of_kindCode_eq (l := .notConfigured)
  illegalCommand := h.of_kindCode_eq (l := .illegalCommand)
  badOperand := h.of_kindCode_eq (l := .badOperand)
  notInvertible := h.of_kindCode_eq (l := .notInvertible)

theorem errorDetail_writeReg (h : ErrorDetail s) (r : Reg) (v : Word) : ErrorDetail (writeReg s r v) := by
  rcases accepted_or_sameRecord_of_writeReg s r v with ⟨-, haccept⟩ | hsame
  · rw [haccept]
    exact errorDetail_of_err_eq_zero rfl
  · exact errorDetail_of_sameRecord h hsame

/-- A completion starts with `ERR = 0`, so its error record is the one it raises, or none (R111, R246). -/
theorem errorDetail_of_complete (herr : s.err = 0#8) (hend : complete s = .next t) : ErrorDetail t := by
  rcases complete_cases s with ⟨i, -, hs⟩ | ⟨r, -, hs⟩ <;> rw [hs] at hend
  · cases recordEnd_of_exec hend with
    | success hsame => exact errorDetail_of_err_eq_zero (hsame.trans herr)
    | error k info hraise => exact errorDetail_of_sameRecord (errorDetail_raise hraise.detail) rfl
  · cases hend
    exact errorDetail_raise (k := .illegalCommand) (word_ofNat_toNat s.cmdw)

end

/-- Settles O52: a running command has `ERR = 0`, so a completion leaves its own record; other events leave the
record alone or clear it. -/
theorem everyStepKeepsTheErrorDetail : Obligations.EveryStepKeepsTheErrorDetail := by
  intro s t _ h hstep
  cases stepEvent_of_step hstep with
  | completion rest hbusy _ hend => exact errorDetail_of_complete (s := setAgenda s rest) (h.running hbusy) hend
  | quiet later words => exact errorDetail_of_sameRecord h rfl
  | write r v rest _ => exact errorDetail_writeReg (errorDetail_of_sameRecord (t := setAgenda s rest) h rfl) r v
  | reset rest _ => exact errorDetail_of_err_eq_zero rfl

end Sys2Proof.Machine

/-! ### The completion of a decoded command, and the `CFGV` test (R246, R251) -/

namespace Sys2Proof.Machine

open Sys2Proof.Safety

/-- Settles O6: at each of the three agendas the step is the completion, and that is `exec` of the decoded
command. -/
theorem stepRunsTheDecodedCommand : Obligations.StepRunsTheDecodedCommand := by
  intro s i hb hi
  refine ⟨fun h => ?_, fun rest h => ?_, fun rest h => ?_⟩
  · rw [step_of_empty hb h, complete_of_decode hi]
  · rw [step_of_engine hb h]
    exact complete_of_decode (s := setAgenda s rest) hi
  · rw [step_of_wait_busy hb h, complete_of_decode hi]

/-- A number's answer ends alike under another value of `CFGV`, which is kept. -/
theorem conclude_putRes_of_cfgv (s : State) (a : Answer Nat) (b : Bool) :
    ∃ (t : State) (c : Bool), conclude s a putRes = .next t ∧
      conclude { s with cfgv := b } a putRes = .next { t with cfgv := c } := by
  cases a with
  | ok n => exact ⟨_, b, rfl, rfl⟩
  | err k info => exact ⟨_, b, rfl, rfl⟩

/-- VALIDATE decides by the configuration registers alone, and gives `CFGV` its verdict (R143). -/
theorem execValidate_of_cfgv (s : State) (b : Bool) :
    ∃ (t : State) (c : Bool), execValidate s = .next t ∧
      execValidate { s with cfgv := b } = .next { t with cfgv := c } := by
  have hsyms : symbols { s with cfgv := b } = symbols s := rfl
  unfold execValidate
  rw [hsyms]
  cases firstFailingCheck s.p.toNat s.g.toNat s.radix.toNat s.width.toNat (symbols s) with
  | none => exact ⟨_, true, rfl, rfl⟩
  | some k => exact ⟨_, false, rfl, rfl⟩

/-- Settles O39: the six commands are bodies under the `CFGV` test, and the other four have none. -/
theorem cfgvTestOfTheSixCommands : Obligations.CfgvTestOfTheSixCommands := by
  intro i s
  refine ⟨fun hi hcfgv => ?_, fun hi b => ?_⟩
  · cases i with
    | nop | validate | modexp | modinv => cases hi
    | scramble | unscramble | tostr | fromstr | encode | decode => exact whenConfigured_of_false s _ hcfgv
  · cases i with
    | nop => exact ⟨_, b, rfl, rfl⟩
    | validate => exact execValidate_of_cfgv s b
    | modexp | modinv => exact conclude_putRes_of_cfgv s _ b
    | scramble | unscramble | tostr | fromstr | encode | decode => cases hi

end Sys2Proof.Machine

/-! ### The interrupt output (R256) -/

namespace Sys2Proof.Machine

open Sys2Proof.Safety

/-- A reset at the head of the agenda is the step (R280). -/
theorem step_of_reset {s : State} {rest : List AgentStep} (h : s.agenda = .reset :: rest) :
    step s = .next (takeReset (setAgenda s rest)) := by
  simp [step, agentStep, h]

/-- The engine's turn ends with `DONE = 1`, and `IE` is then what shows at `irq`. -/
theorem irq_of_completion {s : State} (hb : s.busy = true) (hturn : EngineTurn s) :
    ∃ t, step s = .next t ∧ t.busy = false ∧ irq t = s.ie := by
  obtain ⟨rest, hstep⟩ := step_of_engineTurn s hb hturn
  obtain ⟨t, hend, hidle, hdone, hie, -⟩ := complete_done (setAgenda s rest)
  exact ⟨t, hstep.trans hend, hidle, by rw [irq, hdone, hie, Bool.and_true, setAgenda_ie]⟩

/-- Settles O23: each clause is what the write, the completion or the reset does to `IE` and `DONE`. -/
theorem interruptIsALevel : Obligations.InterruptIsALevel := by
  have hctrl (s : State) (v : Word) : portWrite s 0x01#7 v = writeCtrl s v := portWrite_regAddr s .ctrl v
  have hcmd (s : State) (v : Word) : portWrite s 0x02#7 v = writeReg s .cmd v := portWrite_regAddr s .cmd v
  have hstatus (s : State) (v : Word) : portWrite s 0x03#7 v = writeStatus s v := portWrite_regAddr s .status v
  refine ⟨fun _ => rfl, fun s hb hturn => irq_of_completion hb hturn, fun s v hdone => ?_, fun s v hb => ?_,
    fun s v hclear => ?_, fun s rest hhead => ?_⟩
  · simp [hctrl, irq, hdone]
  · rw [hcmd, writeReg_of_idle rfl hb]
    simp [irq, performWrite]
  · simp [hstatus, irq, hclear]
  · exact ⟨_, step_of_reset hhead, by simp [irq]⟩

end Sys2Proof.Machine

/-! ## Reset, progress and hazards (70_reset_and_hazards.md) -/

namespace Sys2Proof.Machine

open Sys2Proof.Safety

/-! ### A running command ends (R296) -/

/-- After finitely many steps from `s` the machine is in a state with `BUSY = 0`. -/
def ReachesIdle (s : State) : Prop := ∃ k t, Steps k s t ∧ t.busy = false

section

variable {s t : State}

theorem reachesIdle_of_idle (h : s.busy = false) : ReachesIdle s := ⟨0, s, .zero s, h⟩

theorem reachesIdle_of_step (h : step s = .next t) (ht : ReachesIdle t) : ReachesIdle s := by
  obtain ⟨k, u, hsteps, hidle⟩ := ht
  exact ⟨k + 1, u, .cons h hsteps, hidle⟩

/-- Where the engine may move, one step is enough (R246). -/
theorem reachesIdle_of_engineTurn (h : EngineTurn s) : ReachesIdle s := by
  cases hb : s.busy with
  | false => exact reachesIdle_of_idle hb
  | true =>
    obtain ⟨t, hstep, hidle, -⟩ := irq_of_completion hb h
    exact reachesIdle_of_step hstep (reachesIdle_of_idle hidle)

end

theorem portWrite_agenda (s : State) (a : PortAddr) (v : Word) : (portWrite s a v).agenda = s.agenda := by
  rcases portWrite_cases s a v with ⟨-, h⟩ | ⟨r, -, h⟩ <;> rw [h]
  exact writeReg_agenda s r v

/-- GETCODE reads the same entries for every length above the buffer's 32. -/
theorem codeReads_min (len : Nat) : codeReads (min len 32) = codeReads len := by
  simp [codeReads, Config.wMax]

/-- Reads at the head of the agenda do not keep the machine from what comes after them. -/
theorem reachesIdle_of_reads {rest : List AgentStep} (hrest : ∀ s : State, s.agenda = rest → ReachesIdle s)
    (as : List PortAddr) {s : State} (h : s.agenda = as.map .read ++ rest) : ReachesIdle s := by
  induction as generalizing s with
  | nil => exact hrest s h
  | cons a as ih => exact reachesIdle_of_step (step_of_read h) (ih rfl)

/-- Each entry is used up or ends the command. GETCODE alone puts new entries on the agenda, and these are reads. -/
theorem reachesIdle_of_agenda (l : List AgentStep) : ∀ s : State, s.agenda = l → ReachesIdle s := by
  induction l with
  | nil => exact fun s h => reachesIdle_of_engineTurn (.inl h)
  | cons x rest ih =>
    intro s h
    cases x with
    | read a => exact reachesIdle_of_step (step_of_read h) (ih _ rfl)
    | write a v => exact reachesIdle_of_step (step_of_write h) (ih _ (portWrite_agenda _ a v))
    | wait => exact reachesIdle_of_engineTurn (.inr (.inr ⟨rest, h⟩))
    | getCode =>
      refine reachesIdle_of_step (step_of_getCode h) (reachesIdle_of_reads ih (codeAddrs (min s.codelen.toNat 32)) ?_)
      rw [← codeReads_eq (Nat.min_le_right _ 32), codeReads_min]
    | engine => exact reachesIdle_of_engineTurn (.inr (.inl ⟨rest, h⟩))
    | reset => exact reachesIdle_of_step (step_of_reset h) (reachesIdle_of_idle rfl)

/-- Settles O14, by induction on the agenda. -/
theorem runningCommandEnds : Obligations.RunningCommandEnds :=
  fun s _ => reachesIdle_of_agenda s.agenda s rfl

/-! ### Every state has a next state (R298) -/

/-- Settles O8: a completion answers a next state, and the other kinds of step are next states as they stand. -/
theorem everyStepAnswersANextState : Obligations.EveryStepAnswersANextState := by
  intro s
  have hcomplete (s' : State) (h : step s = complete s') : ∃ t, step s = .next t := by
    obtain ⟨t, hend, -⟩ := complete_done s'
    exact ⟨t, h.trans hend⟩
  rcases step_cases s with ⟨-, h, -⟩ | ⟨rest, -, -, h⟩ | ⟨-, -, h⟩ | ⟨rest, -, -, h⟩ | ⟨a, later, h⟩ |
    ⟨a, v, rest, -, h⟩ | ⟨rest, -, h⟩
  · exact hcomplete s h
  · exact hcomplete (setAgenda s rest) h
  all_goals exact ⟨_, h⟩

/-! ### Writes while a command runs (R83, R288) -/

/-- Settles O19: each of the addresses is that of a register of class 3, so with `BUSY = 1` its write is
dropped. -/
theorem busyWritesAreDroppedAndSetHaz : Obligations.BusyWritesAreDroppedAndSetHaz := by
  intro s a v hb ha
  have hdropped : ∀ r, writeClass r = .gated → portWrite s (regAddr r) v = dropWrite s := fun r hr => by
    rw [portWrite_regAddr, writeReg_of_busy_gated hr hb]
  rcases ha with rfl | rfl | rfl | rfl | rfl | rfl | rfl | rfl | rfl | hentry
  · exact hdropped .cmd rfl
  · exact hdropped .p rfl
  · exact hdropped .g rfl
  · exact hdropped .radix rfl
  · exact hdropped .width rfl
  · exact hdropped .opa rfl
  · exact hdropped .opb rfl
  · exact hdropped .opm rfl
  · exact hdropped .codelen rfl
  · obtain ⟨r, rfl, ⟨j, rfl⟩ | ⟨i, rfl⟩⟩ := exists_byteEntry_of_le hentry
    · exact hdropped (.code j) rfl
    · exact hdropped (.alpha i) rfl

/-! ### Reset (R280, R281, R282) -/

/-- Settles O25: `takeReset` looks at the agenda and the words read, and at nothing else of the state. -/
theorem resetFromEveryState : Obligations.ResetFromEveryState :=
  fun _ _ h => step_of_reset h

/-- VALIDATE of a radix outside `[2, 64]` fails at check 1, whatever the other registers hold (R142, R143). -/
theorem exec_validate_of_bad_radix {s : State} (h : ¬ CheckHolds 1 s) :
    exec .validate s = .next (raise (putCfgv false s) .configInvalid 1) := by
  have hfirst : firstFailingCheck s.p.toNat s.g.toNat s.radix.toNat s.width.toNat (symbols s) = some 1 := if_pos h
  rw [exec, execValidate, hfirst]

/-- Settles O26: reset leaves `CFGV = 0`, which the six commands test, and `RADIX = 0`, which check 1 rejects. -/
theorem afterResetNothingIsConfigured : Obligations.AfterResetNothingIsConfigured := by
  refine ⟨fun i hi => ?_, ?_⟩
  · obtain ⟨hunconfigured, -⟩ := cfgvTestOfTheSixCommands i (acceptCommand State.reset (encode i))
    exact ⟨_, hunconfigured hi rfl, rfl, rfl, rfl⟩
  · have hradix : ¬ CheckHolds 1 (acceptCommand State.reset (encode .validate)) := by simp [CheckHolds]
    exact ⟨_, exec_validate_of_bad_radix hradix, rfl, rfl, rfl⟩

end Sys2Proof.Machine
